-- ==== Sys2Proof/Word.lean ====
section
/-! DEFINITION. The word types of the nezoba input core (spec 00_scope R6): unsigned words of fixed widths, the direction accumulators being read as two's complement. -/

namespace Sys2Proof

/-- One expander bank byte (R5: BANK_W = 8). -/
abbrev Byte := BitVec 8

/-- A slot word `T, key` (R60): KEY_W + 1 bits, which are 7 at the reference and never more (log 19). -/
abbrev SlotWord := BitVec 7

/-- A key identifier (R62), in the widest field that KEY_W can give it (log 19). -/
abbrev KeyId := BitVec 6

/-- A key constant: the argument of a PRESS event, which is the identifier of a regular-button key (R72). -/
abbrev KeyConst := BitVec 5

/-- A sequencer position as one word `phase[3:0], b[3:0], s[1:0]` (R16, R70). -/
abbrev PosWord := BitVec 10

/-- An event word `op[2:0], arg[4:0]` (R72). -/
abbrev EventWord := BitVec 8

/-- A count of ticks of `now` (R5: TIME_W = 32, R31). -/
abbrev Time := BitVec 32

/-- A direction accumulator (R12: ACC_W = 8, two's complement). -/
abbrev Acc := BitVec 8

/-! ## The key space of R5: functions of the OPEN parameter N_BTN_KEYS -/

/-- The reference value of N_BTN_KEYS, for which the encodings and the opcode table are printed (R5, R76). -/
def refBtnKeys : Nat := 16

/-- N_KEYS = N_BTN_KEYS + 28 (R5, R62). -/
def nKeys (n : Nat) : Nat := n + 28

/-- KEY_W = ceil(log2 N_KEYS) (R5). -/
def keyW (n : Nat) : Nat := Nat.log2 (nKeys n - 1) + 1

end Sys2Proof
end

