-- ==== Sys2Proof/Syntax.lean ====
section
/-! DEFINITION. The instructions of the nezoba input core: one constructor for each row of spec/opcode_table.json (30 legal and 4 illegal slot words of format S, 14 phases of format Q, 6 event words of format E; 30_encoding R76), and the words they are read from. -/

namespace Sys2Proof

/-- One constructor for each row of the opcode table. Operands are what the row leaves free: a key, a position, an event's argument. -/
inductive Instr where
  -- format S: slot words (R60 to R66)
  | noop
  /-- `BTN k`. -/
  | btn (k : KeyConst)
  /-- `BTN.T k`: the same key with the turbo tag. -/
  | btnT (k : KeyConst)
  | dpadC
  | dpadU
  | dpadUR
  | dpadR
  | dpadDR
  | dpadD
  | dpadDL
  | dpadL
  | dpadUL
  | lsC
  | lsU
  | lsUR
  | lsR
  | lsDR
  | lsD
  | lsDL
  | lsL
  | lsUL
  | rsC
  | rsU
  | rsUR
  | rsR
  | rsDR
  | rsD
  | rsDL
  | rsL
  | rsUL
  /-- T = 0, a key past the key space and below 48 (`mask 0x7C match 0x2C`). -/
  | illegalKey44 (key : KeyId)
  /-- T = 0, a key past the key space, 48 to 63 (`mask 0x70 match 0x30`). -/
  | illegalKey48 (key : KeyId)
  /-- T = 1, no regular button, key[4] = 1 (`mask 0x50 match 0x50`); `k5` is key[5], `lo` is key[3:0]. -/
  | illegalTurboK4 (k5 : BitVec 1) (lo : BitVec 4)
  /-- T = 1, no regular button (`mask 0x60 match 0x60`: key[5] = 1). The words with key[4] = 1 are also words of the row before. -/
  | illegalTurboK5 (key : KeyId)
  -- format Q: sequencer phases (R70)
  | pinmode
  | expinit
  | cfgdir
  | cfgexp
  | load
  | begin
  | relall
  | turbo
  | sampleA
  | sampleB
  /-- RESOLVE at button `b`, slot `slot`: the two fields of the position (R16, R70). -/
  | resolve (b : BitVec 4) (slot : BitVec 2)
  | dpadout
  | commit
  | halt
  -- format E: event words (R72)
  | evBegin
  | evReleaseAll
  | evPress (arg : KeyConst)
  | evSetDpad (arg : BitVec 5)
  | evCommit
  | evDiag (arg : BitVec 5)
deriving DecidableEq, Repr

/-- A word together with the place it stands in, which fixes its format and its length (R78): a slot register or MAPTAB word, the sequencer position, the event port. -/
inductive Code where
  | slot (w : SlotWord)
  | pos (w : PosWord)
  | event (w : EventWord)
deriving DecidableEq, Repr

end Sys2Proof
end

