-- ==== Sys2Proof/WellFormed.lean ====
section
/-! DEFINITION. Which instructions are well formed: the operand ranges the encodings of 30_encoding.md give (R62, R66, R70, R72), for a number `n` of regular-button keys (N_BTN_KEYS). -/

namespace Sys2Proof

/-- The operand ranges: a button key is below N_BTN_KEYS (R62); an illegal word's key fits KEY_W bits and is outside what R65 makes legal, each in the row that has it (R76; log 15); RESOLVE has b below 15 (R5: N_BUTTONS is at most 15) and s in 1 to 3 (R70); PRESS has a button key, SET_DPAD d in 0 to 8, DIAG a code in 1 to 3 (R72). -/
def Instr.wf (n : Nat) : Instr → Bool
  | .btn k | .btnT k => decide (k.toNat < n)
  | .illegalKey44 key => decide (nKeys n ≤ key.toNat) && decide (key.toNat < 48) && decide (key.toNat < 2 ^ keyW n)
  | .illegalKey48 key => decide (nKeys n ≤ key.toNat) && decide (48 ≤ key.toNat) && decide (key.toNat < 2 ^ keyW n)
  | .illegalTurboK4 k5 lo => decide (n ≤ (k5 ++ 1#1 ++ lo).toNat) && decide ((k5 ++ 1#1 ++ lo).toNat < 2 ^ keyW n)
  | .illegalTurboK5 key => decide (n ≤ key.toNat) && !key.getLsbD 4 && decide (key.toNat < 2 ^ keyW n)
  | .resolve b slot => decide (b.toNat < 15) && decide (slot ≠ 0)
  | .evPress arg => decide (arg.toNat < n)
  | .evSetDpad arg => decide (arg.toNat < 9)
  | .evDiag arg => decide (0 < arg.toNat) && decide (arg.toNat < 4)
  | .noop => true
  | .dpadC | .dpadU | .dpadUR | .dpadR | .dpadDR | .dpadD | .dpadDL | .dpadL | .dpadUL => true
  | .lsC | .lsU | .lsUR | .lsR | .lsDR | .lsD | .lsDL | .lsL | .lsUL => true
  | .rsC | .rsU | .rsUR | .rsR | .rsDR | .rsD | .rsDL | .rsL | .rsUL => true
  | .pinmode | .expinit | .cfgdir | .cfgexp | .load | .begin => true
  | .relall | .turbo | .sampleA | .sampleB | .dpadout | .commit | .halt => true
  | .evBegin | .evReleaseAll | .evCommit => true

end Sys2Proof
end

