-- ==== Sys2Proof/Decode.lean ====
section
/-! DEFINITION. The decoder and the encoder of the three formats (30_encoding.md R60 to R72), for any number of regular-button keys, both written from the encoding tables, and the opcode table's rows. -/

namespace Sys2Proof

/-- Why a word is no instruction. Slot words never are: every one is a row of the table (R66). -/
inductive Reject where
  /-- Phase codes 6 and 7, which no step writes (R70). -/
  | unusedPhase
  /-- b or s is not 0 in a phase other than RESOLVE, which no step writes (R70). -/
  | strayPosition
  /-- Event operations 5 and 6, which are never emitted (R72). -/
  | unusedEventOp
  /-- BEGIN, RELEASE_ALL or COMMIT with an argument that is not 0, which is never emitted (R72). -/
  | strayEventArg
deriving DecidableEq, Repr

/-- What the decoder answers. -/
inductive Decoded where
  | ok (i : Instr)
  | reject (r : Reject)
deriving DecidableEq, Repr

/-- The instruction, where there is one. -/
def Decoded.instr? : Decoded → Option Instr
  | .ok i => some i
  | .reject _ => none

/-! ## Format S, for a number `n` of regular-button keys (N_BTN_KEYS; log 19) -/

/-- T, the turbo tag: the bit above the key field (R60: bit 6 at the reference). -/
def slotT (n : Nat) (w : SlotWord) : Bool := w.getLsbD (keyW n)

/-- The key field: the low KEY_W bits (R60: bits 5 to 0 at the reference). -/
def slotKey (n : Nat) (w : SlotWord) : KeyId := BitVec.ofNat 6 (w.toNat % 2 ^ keyW n)

/-- A slot word without the turbo tag, by its key (R62, R64, R65, R66): the button keys, then the ranges of the D-pad, the sticks and the no-op, then the illegal keys (log 15). -/
def decodePlainKey (n : Nat) (k : KeyId) : Instr :=
  if k.toNat < n then .btn (k.setWidth 5)
  else
    match k.toNat - n with
    | 0 => .dpadC
    | 1 => .dpadU
    | 2 => .dpadUR
    | 3 => .dpadR
    | 4 => .dpadDR
    | 5 => .dpadD
    | 6 => .dpadDL
    | 7 => .dpadL
    | 8 => .dpadUL
    | 9 => .lsC
    | 10 => .lsU
    | 11 => .lsUR
    | 12 => .lsR
    | 13 => .lsDR
    | 14 => .lsD
    | 15 => .lsDL
    | 16 => .lsL
    | 17 => .lsUL
    | 18 => .rsC
    | 19 => .rsU
    | 20 => .rsUR
    | 21 => .rsR
    | 22 => .rsDR
    | 23 => .rsD
    | 24 => .rsDL
    | 25 => .rsL
    | 26 => .rsUL
    | 27 => .noop
    | _ => if k.toNat < 48 then .illegalKey44 k else .illegalKey48 k

/-- A slot word with the turbo tag, by its key: legal only on a regular button (R65, R66; log 15). -/
def decodeTurboKey (n : Nat) (k : KeyId) : Instr :=
  if k.toNat < n then .btnT (k.setWidth 5)
  else if k.getLsbD 4 then .illegalTurboK4 (k.extractLsb' 5 1) (k.extractLsb' 0 4)
  else .illegalTurboK5 k

/-- The decoder of slot words (R65). It is total: the illegal words have rows of their own. -/
def decodeSlot (n : Nat) (w : SlotWord) : Instr :=
  if slotT n w then decodeTurboKey n (slotKey n w) else decodePlainKey n (slotKey n w)

/-! ## Format Q -/

/-- The decoder of sequencer positions (R70): the phase is the opcode; b and s are operands of RESOLVE and 0 elsewhere. -/
def decodePos (w : PosWord) : Decoded :=
  let plain (i : Instr) : Decoded := if w.extractLsb' 0 6 = 0 then .ok i else .reject .strayPosition
  match (w.extractLsb' 6 4).toNat with
  | 0 => plain .pinmode
  | 1 => plain .expinit
  | 2 => plain .cfgdir
  | 3 => plain .cfgexp
  | 4 => plain .load
  | 5 => plain .begin
  | 8 => plain .relall
  | 9 => plain .turbo
  | 10 => plain .sampleA
  | 11 => plain .sampleB
  | 12 => .ok (.resolve (w.extractLsb' 2 4) (w.extractLsb' 0 2))
  | 13 => plain .dpadout
  | 14 => plain .commit
  | 15 => plain .halt
  | _ => .reject .unusedPhase

/-! ## Format E -/

/-- The decoder of event words (R72): the operation is bits 7 to 5, the argument bits 4 to 0. -/
def decodeEvent (w : EventWord) : Decoded :=
  let arg := w.extractLsb' 0 5
  let plain (i : Instr) : Decoded := if arg = 0 then .ok i else .reject .strayEventArg
  match (w.extractLsb' 5 3).toNat with
  | 0 => plain .evBegin
  | 1 => plain .evReleaseAll
  | 2 => .ok (.evPress arg)
  | 3 => .ok (.evSetDpad arg)
  | 4 => plain .evCommit
  | 7 => .ok (.evDiag arg)
  | _ => .reject .unusedEventOp

/-- The decoder: the place a word stands in fixes its format (R78). -/
def decode (n : Nat) : Code → Decoded
  | .slot w => .ok (decodeSlot n w)
  | .pos w => decodePos w
  | .event w => decodeEvent w

/-! ## The encoder -/

/-- A position word with b = 0 and s = 0. -/
def phaseWord (phase : BitVec 4) : Code := .pos (phase ++ (0 : BitVec 6))

/-- The slot word with key `key` and no turbo tag (R60). -/
def plainWord (key : Nat) : Code := .slot (BitVec.ofNat 7 key)

/-- The slot word with key `key` and the turbo tag (R60). -/
def turboWord (n key : Nat) : Code := .slot (BitVec.ofNat 7 (2 ^ keyW n + key))

/-- The word of an instruction, from the tables of R62 and R64 (slot words), R70 (positions) and R72 (event words). -/
def encode (n : Nat) : Instr → Code
  | .btn k => plainWord k.toNat
  | .btnT k => turboWord n k.toNat
  | .dpadC => plainWord n
  | .dpadU => plainWord (n + 1)
  | .dpadUR => plainWord (n + 2)
  | .dpadR => plainWord (n + 3)
  | .dpadDR => plainWord (n + 4)
  | .dpadD => plainWord (n + 5)
  | .dpadDL => plainWord (n + 6)
  | .dpadL => plainWord (n + 7)
  | .dpadUL => plainWord (n + 8)
  | .lsC => plainWord (n + 9)
  | .lsU => plainWord (n + 10)
  | .lsUR => plainWord (n + 11)
  | .lsR => plainWord (n + 12)
  | .lsDR => plainWord (n + 13)
  | .lsD => plainWord (n + 14)
  | .lsDL => plainWord (n + 15)
  | .lsL => plainWord (n + 16)
  | .lsUL => plainWord (n + 17)
  | .rsC => plainWord (n + 18)
  | .rsU => plainWord (n + 19)
  | .rsUR => plainWord (n + 20)
  | .rsR => plainWord (n + 21)
  | .rsDR => plainWord (n + 22)
  | .rsD => plainWord (n + 23)
  | .rsDL => plainWord (n + 24)
  | .rsL => plainWord (n + 25)
  | .rsUL => plainWord (n + 26)
  | .noop => plainWord (n + 27)
  | .illegalKey44 key => plainWord key.toNat
  | .illegalKey48 key => plainWord key.toNat
  | .illegalTurboK4 k5 lo => turboWord n (k5 ++ 1#1 ++ lo).toNat
  | .illegalTurboK5 key => turboWord n key.toNat
  | .pinmode => phaseWord 0
  | .expinit => phaseWord 1
  | .cfgdir => phaseWord 2
  | .cfgexp => phaseWord 3
  | .load => phaseWord 4
  | .begin => phaseWord 5
  | .relall => phaseWord 8
  | .turbo => phaseWord 9
  | .sampleA => phaseWord 10
  | .sampleB => phaseWord 11
  | .resolve b slot => .pos (12#4 ++ b ++ slot)
  | .dpadout => phaseWord 13
  | .commit => phaseWord 14
  | .halt => phaseWord 15
  | .evBegin => .event 0x00
  | .evReleaseAll => .event 0x20
  | .evPress arg => .event (2#3 ++ arg)
  | .evSetDpad arg => .event (3#3 ++ arg)
  | .evCommit => .event 0x80
  | .evDiag arg => .event (7#3 ++ arg)

/-- The word has no bit above those of its format: KEY_W + 1 bits of a slot word (R60); a position and an event word fill theirs (R78). -/
def Code.fits (n : Nat) : Code → Bool
  | .slot w => decide (w.toNat < 2 ^ (keyW n + 1))
  | .pos _ | .event _ => true

/-! ## The opcode table's rows (R76) -/

/-- The number a word is, whatever its format, with bit 0 the least significant. -/
def Code.bits : Code → Nat
  | .slot w => w.toNat
  | .pos w => w.toNat
  | .event w => w.toNat

/-- One row: the bits that select it and the value they have. -/
structure TableRow where
  mask : Nat
  pattern : Nat
deriving DecidableEq, Repr

/-- A word selects a row when its masked bits are the row's pattern (R76). -/
def TableRow.selects (r : TableRow) (c : Code) : Bool := c.bits &&& r.mask == r.pattern

/-- The row of each instruction, as R76 and opcode_table.json give `mask` and `match` for the reference N_BTN_KEYS. -/
def Instr.row : Instr → TableRow
  | .btn _ => ⟨0x70, 0x00⟩
  | .btnT _ => ⟨0x70, 0x40⟩
  | .dpadC => ⟨0x7F, 0x10⟩
  | .dpadU => ⟨0x7F, 0x11⟩
  | .dpadUR => ⟨0x7F, 0x12⟩
  | .dpadR => ⟨0x7F, 0x13⟩
  | .dpadDR => ⟨0x7F, 0x14⟩
  | .dpadD => ⟨0x7F, 0x15⟩
  | .dpadDL => ⟨0x7F, 0x16⟩
  | .dpadL => ⟨0x7F, 0x17⟩
  | .dpadUL => ⟨0x7F, 0x18⟩
  | .lsC => ⟨0x7F, 0x19⟩
  | .lsU => ⟨0x7F, 0x1A⟩
  | .lsUR => ⟨0x7F, 0x1B⟩
  | .lsR => ⟨0x7F, 0x1C⟩
  | .lsDR => ⟨0x7F, 0x1D⟩
  | .lsD => ⟨0x7F, 0x1E⟩
  | .lsDL => ⟨0x7F, 0x1F⟩
  | .lsL => ⟨0x7F, 0x20⟩
  | .lsUL => ⟨0x7F, 0x21⟩
  | .rsC => ⟨0x7F, 0x22⟩
  | .rsU => ⟨0x7F, 0x23⟩
  | .rsUR => ⟨0x7F, 0x24⟩
  | .rsR => ⟨0x7F, 0x25⟩
  | .rsDR => ⟨0x7F, 0x26⟩
  | .rsD => ⟨0x7F, 0x27⟩
  | .rsDL => ⟨0x7F, 0x28⟩
  | .rsL => ⟨0x7F, 0x29⟩
  | .rsUL => ⟨0x7F, 0x2A⟩
  | .noop => ⟨0x7F, 0x2B⟩
  | .illegalKey44 _ => ⟨0x7C, 0x2C⟩
  | .illegalKey48 _ => ⟨0x70, 0x30⟩
  | .illegalTurboK4 _ _ => ⟨0x50, 0x50⟩
  | .illegalTurboK5 _ => ⟨0x60, 0x60⟩
  | .pinmode => ⟨0x3C0, 0x000⟩
  | .expinit => ⟨0x3C0, 0x040⟩
  | .cfgdir => ⟨0x3C0, 0x080⟩
  | .cfgexp => ⟨0x3C0, 0x0C0⟩
  | .load => ⟨0x3C0, 0x100⟩
  | .begin => ⟨0x3C0, 0x140⟩
  | .relall => ⟨0x3C0, 0x200⟩
  | .turbo => ⟨0x3C0, 0x240⟩
  | .sampleA => ⟨0x3C0, 0x280⟩
  | .sampleB => ⟨0x3C0, 0x2C0⟩
  | .resolve _ _ => ⟨0x3C0, 0x300⟩
  | .dpadout => ⟨0x3C0, 0x340⟩
  | .commit => ⟨0x3C0, 0x380⟩
  | .halt => ⟨0x3C0, 0x3C0⟩
  | .evBegin => ⟨0xFF, 0x00⟩
  | .evReleaseAll => ⟨0xFF, 0x20⟩
  | .evPress _ => ⟨0xE0, 0x40⟩
  | .evSetDpad _ => ⟨0xE0, 0x60⟩
  | .evCommit => ⟨0xFF, 0x80⟩
  | .evDiag _ => ⟨0xE0, 0xE0⟩

/-! ## The host's words -/

/-- The place a bare number of the opcode table stands in (log 16). A number of one byte is a slot word when it fits in 7 bits and an event word otherwise; a wider one is a position, or, where it is none, the slot word it fits. The event words below 0x80 have the bits of slot words and cannot be told from them. -/
def codeOfTable (nbits w : Nat) : Code :=
  if nbits ≤ 8 then
    if w < 128 then .slot (BitVec.ofNat 7 w) else .event (BitVec.ofNat 8 w)
  else
    match decodePos (BitVec.ofNat 10 w) with
    | .ok _ => .pos (BitVec.ofNat 10 w)
    | .reject _ => if w < 128 then .slot (BitVec.ofNat 7 w) else .pos (BitVec.ofNat 10 w)

/-- What the decoder, at the reference N_BTN_KEYS of the table (R76), reads from an instruction whose bits are `w`, as the opcode table numbers them; a number that does not fit the longest format (10 bits; 8 for one byte) is no instruction. -/
def decodeTableWord (nbits w : Nat) : Option Instr :=
  if w < (if nbits ≤ 8 then 256 else 1024) then (decode refBtnKeys (codeOfTable nbits w)).instr? else none

end Sys2Proof
end

