-- ==== Sys2Proof/Config.lean ====
section
/-! DEFINITION. What an implementation fixes (the parameters of 00_scope R5, with the reference values of the spec) and the free values: the answers the environment gives. -/

namespace Sys2Proof

/-- The two expander banks (R5, R41): A = 0, B = 1. -/
inductive Bank where
  | A
  | B
deriving DecidableEq, Repr

/-- A sparse read-only memory: (address, byte) pairs in the canonical form of `Machine.Memory.wf`. -/
abbrev Memory := List Host.Cell

/-- The OPEN parameters of R5. They are arguments of the model, not state (R34): every state carries them and no step changes them (log 1). -/
structure Params where
  /-- N_BUTTONS. -/
  nButtons : Nat
  /-- PINMAP: entry b is `bank, bit[2:0]` of button b (R67). -/
  pinmap : List (BitVec 4)
  /-- CFG_EXP_BANK. -/
  cfgExpBank : Bank
  /-- CFG_EXP_BIT. -/
  cfgExpBit : BitVec 3
  /-- N_BTN_KEYS; N_KEYS and KEY_W are functions of it (`nKeys`, `keyW`). -/
  nBtnKeys : Nat
  /-- MAPTAB: one byte a slot word (R77); a word that is not listed is NOOP (R74). -/
  maptab : Memory
  /-- DEBOUNCE_TICKS. -/
  debounceTicks : Nat
  /-- TURBO_PERIOD_TICKS. -/
  turboPeriodTicks : Nat
  /-- CFG_DEBOUNCE_TICKS. -/
  cfgDebounceTicks : Nat
  /-- CFG_MAX_READS: 0 means no cap. -/
  cfgMaxReads : Nat
  /-- TURBO_PHASE_INIT. -/
  turboPhaseInit : Bool
deriving DecidableEq, Repr

/-- What the environment does to the input ports (R32) between two steps. -/
structure EnvMove where
  /-- The ticks of `now` that pass. -/
  ticks : Time
  /-- The level of `rst`. -/
  rst : Bool
  /-- `exp_done`: the transport answers a request made in the coming step. -/
  expDone : Bool
  /-- `exp_data`: the byte it answers a READ with. -/
  expData : Byte
  /-- `cfg_pin`: the levels of the three local pins. -/
  cfgPin : BitVec 3
deriving DecidableEq, Repr, Inhabited

/-- The free value of the environment: its n-th move, where no script says it (R30, R46, R174; log 3). -/
opaque Config.freeInputs : Nat → EnvMove

/-- The free value of `now` at reset: R31 gives it "an arbitrary origin" (log 4). -/
opaque Config.nowOrigin : Time

/-! ## The reference parameters -/

/-- PINMAP of the reference: entry b is the number b (R67). -/
def Config.refPinmap : List (BitVec 4) := [0, 1, 2, 3, 4, 5, 6, 7, 8, 9, 10, 11, 12, 13, 14]

/-- Configuration 0 of the test table TT (95_test_vectors part 2), "plain". -/
def Config.refTable0 : Memory :=
  [(0, 0x11), (3, 0x15), (6, 0x17), (9, 0x13), (12, 0x00), (15, 0x01), (18, 0x02), (21, 0x03), (24, 0x04), (27, 0x05),
   (30, 0x06), (33, 0x07), (36, 0x08), (39, 0x09), (42, 0x0A)]

/-- Configuration 1 of TT, "turbo". -/
def Config.refTable1 : Memory := [(69, 0x40), (72, 0x01), (73, 0x02), (74, 0x43)]

/-- Configuration 2 of TT, "socd". -/
def Config.refTable2 : Memory :=
  [(90, 0x13), (93, 0x13), (96, 0x13), (99, 0x17), (102, 0x12), (105, 0x16), (108, 0x11), (109, 0x11), (110, 0x11),
   (111, 0x10), (114, 0x1A), (117, 0x27), (118, 0x05), (120, 0x17)]

/-- Configuration 15 of TT, "bad": malformed on purpose. -/
def Config.refTable15 : Memory := [(675, 0x51), (678, 0x01), (679, 0x2C), (680, 0x02)]

/-- The reference values of R5, with MAPTAB the table TT. -/
def Config.reference : Params where
  nButtons := 15
  pinmap := Config.refPinmap
  cfgExpBank := .B
  cfgExpBit := 7
  nBtnKeys := refBtnKeys
  maptab := Config.refTable0 ++ Config.refTable1 ++ Config.refTable2 ++ Config.refTable15
  debounceTicks := 5000
  turboPeriodTicks := 13300
  cfgDebounceTicks := 5000
  cfgMaxReads := 0
  turboPhaseInit := false

end Sys2Proof
end

