-- ==== Sys2Proof/Machine/State.lean ====
section
/-! DEFINITION. The state of the nezoba input core (10_state R10 to R35), the reasons a step of the model can stop, and the state after reset (R33). -/

namespace Sys2Proof.Machine

/-- The sequencer position (R16). -/
structure Pc where
  /-- The phase code: the step to run next (R70). -/
  phase : BitVec 4
  /-- The button index, meaningful in RESOLVE. -/
  b : BitVec 4
  /-- The slot number 1 to 3 in RESOLVE, 0 elsewhere. -/
  slot : BitVec 2
deriving DecidableEq, Repr

/-- The three operating modes (R14, R203). -/
inductive Mode where
  | boot
  | run
  | halt
deriving DecidableEq, Repr

/-- The state of one bank's debouncer (R20 to R22). -/
structure BankState where
  /-- ACC: the accepted byte. -/
  acc : Byte
  /-- PREV: the previous raw byte. -/
  prev : Byte
  /-- TS: the time of the last raw change. -/
  ts : Time
deriving DecidableEq, Repr

/-- The nine D-pad states, in the order of their offsets (R64). -/
inductive Dir where
  | center
  | up
  | upRight
  | right
  | downRight
  | down
  | downLeft
  | left
  | upLeft
deriving DecidableEq, Repr

/-- A report: the set of pressed keys and the one D-pad state (R9, R176). -/
structure Report where
  keys : List KeyConst
  dpad : Option Dir
deriving DecidableEq, Repr

/-- The model's copy of the gamepad layer (R29, R176; log 10). -/
structure Layer where
  /-- REPORT_KEYS, listed in rising order without repeats. -/
  keys : List KeyConst
  /-- REPORT_DPAD; it has no value until the first SET_DPAD (R33). -/
  dpad : Option Dir
  /-- The last report committed to the host, if there was one. -/
  committed : Option Report
deriving DecidableEq, Repr

/-- The request on `exp_op` (R71). -/
inductive ExpOp where
  | none
  | init
  | readA
  | readB
deriving DecidableEq, Repr

/-- The input ports (R32) and what moves them. -/
structure Env where
  /-- `now` (R31). -/
  now : Time
  /-- `rst` (R215). -/
  rst : Bool
  /-- `exp_done`. -/
  expDone : Bool
  /-- `exp_data`. -/
  expData : Byte
  /-- `cfg_pin`. -/
  cfgPin : BitVec 3
  /-- The environment's next moves; where it is empty the free value `Config.freeInputs` is taken (log 3). -/
  script : List EnvMove
  /-- How many moves were made: the index of the next free value (log 3). -/
  draws : Nat
deriving DecidableEq, Repr

/-- The whole state. INVENTORY.md lists the rule that names each field. -/
structure State where
  /-- The OPEN parameters of R5, which no step changes (log 1). -/
  params : Params
  pc : Pc
  /-- FAULT (R15), also the output port `fault`. -/
  fault : BitVec 2
  /-- KEY[s][b] (R11), in the order `b*3 + (s-1)`. -/
  key : List SlotWord
  /-- The direction accumulators (R12). -/
  x : Acc
  y : Acc
  /-- TURBO_PHASE (R18): true is "on". -/
  turboPhase : Bool
  /-- TURBO_TS (R23). -/
  turboTs : Time
  bankA : BankState
  bankB : BankState
  /-- CFG_INDEX (R24). -/
  cfgIndex : BitVec 4
  /-- CFG_DIR (R25). -/
  cfgDir : BitVec 3
  /-- CFG_PREV (R25). -/
  cfgPrev : Bool
  /-- CFG_PREV_V (R25). -/
  cfgPrevV : Bool
  /-- CFG_READS (R25), "wide enough" (log 18). -/
  cfgReads : Nat
  /-- The model's own: the Wait of the reading in progress has passed (R84; log 5). -/
  cfgWaited : Bool
  /-- The output port `pin_pullup` (R32). -/
  pinPullup : BitVec 3
  /-- The output port `exp_op` (R32). -/
  expOp : ExpOp
  /-- The output port `evt` (R32). -/
  evt : EventWord
  /-- The output port `evt_valid` (R32). -/
  evtValid : Bool
  /-- The event stream since reset, oldest first (R175, R232; log 9). -/
  events : List EventWord
  layer : Layer
  env : Env
deriving DecidableEq, Repr

/-- The spaces an address can fall outside of. -/
inductive Space where
  | maptab
  | pinmap
  | dlut
  | key
deriving DecidableEq, Repr

/-- Stops that are faults of the model. The fatal conditions of R190 are not among them: they are taken, and end in HALT. -/
inductive Fault where
  /-- Raised by LOAD, RESOLVE and DPADOUT when an index names no word of the table or register file (R44, 93 V2). Safe: the spec says that no such access can be formed, and gives it no answer. -/
  | outOfRange (space : Space)
deriving DecidableEq, Repr

/-- Stops that are refusals. -/
inductive Refusal where
  /-- Raised by `exec` for an instruction that has no meaning yet. Safe: nothing is claimed of it. -/
  | notModelled (mnemonic : String)
  /-- Raised by `step` and by RESOLVE at a `pc` value that no transition writes (93 V3). Safe: the spec gives such a value no meaning. -/
  | badPosition
  /-- Raised by PRESS, SET_DPAD and DIAG with an argument outside the ranges of R72 (93 V9). Safe: such a word is never emitted and the layer's behaviour on it is not given. -/
  | reservedEventArg
  /-- Raised by `execSlotWord` for an instruction that is no slot word. Safe: the decoder of slot words answers none. -/
  | notSlotWord
deriving DecidableEq, Repr

/-- The outcome of one instruction. -/
abbrev Result := Host.Outcome State Fault Refusal

/-- A bank's debouncer after reset: all released (R33). -/
def BankState.reset : BankState := { acc := 0xFF, prev := 0xFF, ts := 0 }

/-- The gamepad layer's copy at power-on (R33): nothing pressed, no D-pad state, nothing committed. -/
def Layer.reset : Layer := { keys := [], dpad := none, committed := none }

/-- The input ports when reset is released: `rst` is low, everything else is the environment's (log 3, log 4). -/
def Env.reset : Env where
  now := Config.nowOrigin
  rst := false
  expDone := (Config.freeInputs 0).expDone
  expData := (Config.freeInputs 0).expData
  cfgPin := (Config.freeInputs 0).cfgPin
  script := []
  draws := 1

/-- The state after reset with parameters `p` (R33). KEY, x, y, TURBO_TS, CFG_INDEX, CFG_DIR and CFG_PREV, which R33 gives no value, and the data of `evt`, hold 0 (log 2, log 8). -/
def State.resetWith (p : Params) : State where
  params := p
  pc := { phase := 0, b := 0, slot := 0 }
  fault := 0
  key := List.replicate (3 * p.nButtons) 0
  x := 0
  y := 0
  turboPhase := p.turboPhaseInit
  turboTs := 0
  bankA := BankState.reset
  bankB := BankState.reset
  cfgIndex := 0
  cfgDir := 0
  cfgPrev := false
  cfgPrevV := false
  cfgReads := 0
  cfgWaited := false
  pinPullup := 0
  expOp := .none
  evt := 0
  evtValid := false
  events := []
  layer := Layer.reset
  env := Env.reset

/-- The machine right after power-on reset, with the reference parameters of R5 (log 1). -/
def State.reset : State := State.resetWith Config.reference

end Sys2Proof.Machine
end

