-- ==== Sys2Proof/Machine/Encodings.lean ====
section
/-! DEFINITION. The codes of 30_encoding.md that the machine itself writes and reads: phases, directions, fault codes, event words, transport requests, PINMAP entries. -/

namespace Sys2Proof.Machine

/-- The phases of the sequencer (R70). -/
inductive Phase where
  | pinmode
  | expinit
  | cfgdir
  | cfgexp
  | load
  | begin
  | relall
  | turbo
  | sampleA
  | sampleB
  | resolve
  | dpadout
  | commit
  | halt
deriving DecidableEq, Repr

/-- The phase codes of R70; 6 and 7 are unused. -/
def Phase.code : Phase → BitVec 4
  | .pinmode => 0
  | .expinit => 1
  | .cfgdir => 2
  | .cfgexp => 3
  | .load => 4
  | .begin => 5
  | .relall => 8
  | .turbo => 9
  | .sampleA => 10
  | .sampleB => 11
  | .resolve => 12
  | .dpadout => 13
  | .commit => 14
  | .halt => 15

/-- The position `(phase, 0, 0)`. -/
def Pc.start (p : Phase) : Pc := { phase := p.code, b := 0, slot := 0 }

/-- The position `(RESOLVE, b, s)`. -/
def Pc.resolveAt (b : BitVec 4) (slot : BitVec 2) : Pc := { phase := Phase.resolve.code, b := b, slot := slot }

/-- The position as one 10-bit word (R16). -/
def Pc.word (p : Pc) : PosWord := p.phase ++ p.b ++ p.slot

/-- The position a 10-bit word stands for (R16). -/
def Pc.ofWord (w : PosWord) : Pc :=
  { phase := w.extractLsb' 6 4, b := w.extractLsb' 2 4, slot := w.extractLsb' 0 2 }

/-- The mode codes of R14. -/
def Mode.code : Mode → BitVec 2
  | .boot => 0
  | .run => 1
  | .halt => 2

/-- The offset of a direction, which is also its direction code (R64, R158). -/
def Dir.offset : Dir → BitVec 4
  | .center => 0
  | .up => 1
  | .upRight => 2
  | .right => 3
  | .downRight => 4
  | .down => 5
  | .downLeft => 6
  | .left => 7
  | .upLeft => 8

/-- The direction with a given code, if it is one of 0 to 8 (R64). -/
def Dir.ofOffset (n : BitVec 5) : Option Dir :=
  match n.toNat with
  | 0 => some .center
  | 1 => some .up
  | 2 => some .upRight
  | 3 => some .right
  | 4 => some .downRight
  | 5 => some .down
  | 6 => some .downLeft
  | 7 => some .left
  | 8 => some .upLeft
  | _ => none

/-- dx of R64: right is +1 (90_conflicts C3). -/
def Dir.dx : Dir → Acc
  | .center | .up | .down => 0
  | .upRight | .right | .downRight => 1
  | .downLeft | .left | .upLeft => -1

/-- dy of R64: up is +1 (90_conflicts C3). -/
def Dir.dy : Dir → Acc
  | .center | .right | .left => 0
  | .up | .upRight | .upLeft => 1
  | .downRight | .down | .downLeft => -1

/-- The fatal conditions (R190). -/
inductive FatalCode where
  | cfgRange
  | nonConverge
  | badSlot
deriving DecidableEq, Repr

/-- The fault codes of R73; 0 is none. -/
def FatalCode.code : FatalCode → BitVec 2
  | .cfgRange => 1
  | .nonConverge => 2
  | .badSlot => 3

/-- The fatal condition a DIAG argument names, if it is one of 1 to 3 (R72). -/
def FatalCode.ofArg (arg : BitVec 5) : Option FatalCode :=
  match arg.toNat with
  | 1 => some .cfgRange
  | 2 => some .nonConverge
  | 3 => some .badSlot
  | _ => none

/-- The events of R72. -/
inductive Event where
  | begin
  | releaseAll
  | press (k : KeyConst)
  | setDpad (d : Dir)
  | commit
  | diag (code : FatalCode)
deriving DecidableEq, Repr

/-- The event word: operation in the top three bits, argument below (R72). -/
def Event.word : Event → EventWord
  | .begin => 0#3 ++ 0#5
  | .releaseAll => 1#3 ++ 0#5
  | .press k => 2#3 ++ k
  | .setDpad d => 3#3 ++ d.offset.setWidth 5
  | .commit => 4#3 ++ 0#5
  | .diag c => 7#3 ++ c.code.setWidth 5

/-- The codes on `exp_op` (R71). -/
def ExpOp.code : ExpOp → BitVec 2
  | .none => 0
  | .init => 1
  | .readA => 2
  | .readB => 3

/-- The READ request of a bank (R71). -/
def readOp : Bank → ExpOp
  | .A => .readA
  | .B => .readB

/-- The bank of a PINMAP entry: bit 3, A = 0, B = 1 (R67). -/
def pinBank (e : BitVec 4) : Bank := if e.getLsbD 3 then .B else .A

/-- The pin number of a PINMAP entry: bits 2 to 0 (R67). -/
def pinBit (e : BitVec 4) : BitVec 3 := e.extractLsb' 0 3

/-- The PINMAP entry of a bank and a pin number (R67). -/
def pinEntry (bank : Bank) (bit : BitVec 3) : BitVec 4 := (match bank with | .A => 0#1 | .B => 1#1) ++ bit

end Sys2Proof.Machine
end

