-- ==== Sys2Proof/Machine/Ops.lean ====
section
/-! DEFINITION. The named operations the meanings are written with: the tables, the slot registers, the event port, the transport, the environment, and taking a fatal condition. -/

namespace Sys2Proof.Machine

/-! ## MAPTAB as memory (R40, R44, R77) -/

/-- What a word of MAPTAB that is not listed reads as, for `n` regular-button keys: NOOP, the key N_BTN_KEYS + 27 (R74: a line or a block that is missing stands for NOOP; log 20). -/
def Memory.unlisted (n : Nat) : Byte := BitVec.ofNat 8 (n + 27)

/-- The byte at an address. -/
def Memory.read (n : Nat) : Memory → Nat → Byte
  | [], _ => Memory.unlisted n
  | (a, v) :: m, addr => if a = addr then v else Memory.read n m addr

/-- The memory with one byte changed, in canonical form again. MAPTAB is never written by a step (R40); this is how a table is made. -/
def Memory.write (n : Nat) : Memory → Nat → Byte → Memory
  | [], addr, v => if v = Memory.unlisted n then [] else [(addr, v)]
  | (a, w) :: m, addr, v =>
    if addr < a then (if v = Memory.unlisted n then (a, w) :: m else (addr, v) :: (a, w) :: m)
    else if addr = a then (if v = Memory.unlisted n then m else (a, v) :: m)
    else (a, w) :: Memory.write n m addr v

/-- Every address of a memory is at least `lo`, rising strictly, and no entry is what an unlisted address reads as. -/
def Memory.wfFrom (n : Nat) : Nat → Memory → Bool
  | _, [] => true
  | lo, (a, v) :: m => decide (lo ≤ a) && decide (v ≠ Memory.unlisted n) && Memory.wfFrom n (a + 1) m

/-- The canonical form: equal contents are equal lists. -/
def Memory.wf (n : Nat) (m : Memory) : Bool := Memory.wfFrom n 0 m

/-- `maddr(c,b,s)`: button-major, the three slots of a button adjacent (R40). -/
def maddr (nButtons c b s : Nat) : Nat := (c * nButtons + b) * 3 + (s - 1)

/-- `MemRead(MAPTAB, addr, KEY_W + 1)`: no answer outside the 48 x N_BUTTONS words (R40, R44). A word is the low 7 bits of its byte (R77; log 20). -/
def memReadMaptab (p : Params) (addr : Nat) : Option SlotWord :=
  if addr < 48 * p.nButtons then some ((Memory.read p.nBtnKeys p.maptab addr).setWidth 7) else none

/-- `MemRead(PINMAP, b, 4)`: no answer for a button that does not exist (R41, R44). -/
def memReadPinmap (p : Params) (b : Nat) : Option (BitVec 4) :=
  if b < p.nButtons then p.pinmap[b]? else none

/-! ## The slot registers (R11) -/

/-- `KEY[s][b]`: no answer where there is no such register (R11: s in 1 to 3, b below N_BUTTONS). -/
def State.readKey (s : State) (slot : BitVec 2) (b : BitVec 4) : Option SlotWord :=
  if slot ≠ 0 ∧ b.toNat < s.params.nButtons then s.key[b.toNat * 3 + (slot.toNat - 1)]? else none

/-- The words of configuration `c`, for every button and slot, in the order of the slot registers (R91). -/
def configWords (p : Params) (c : Nat) : Option (List SlotWord) :=
  (List.range (3 * p.nButtons)).mapM fun i => memReadMaptab p (maddr p.nButtons c (i / 3) (i % 3 + 1))

/-! ## The sequencer position -/

/-- `pc <- …`. -/
def State.setPc (s : State) (p : Pc) : State := { s with pc := p }

/-- Where RESOLVE goes past button `b`: the next button's slot 1, or DPADOUT past the last (R170). -/
def nextButton (nButtons : Nat) (b : BitVec 4) : Pc :=
  if b.toNat + 1 < nButtons then Pc.resolveAt (b + 1) 1 else Pc.start .dpadout

/-- Where RESOLVE goes past slot `slot` of a pressed button (R170). -/
def nextSlot (nButtons : Nat) (b : BitVec 4) (slot : BitVec 2) : Pc :=
  if slot.toNat < 3 then Pc.resolveAt b (slot + 1) else nextButton nButtons b

/-! ## The gamepad port and the layer (R72, R165, R176) -/

/-- A key added to a set listed in rising order; adding a member changes nothing (R176). -/
def insertKey (k : KeyConst) : List KeyConst → List KeyConst
  | [] => [k]
  | a :: l => if k.toNat < a.toNat then k :: a :: l else if k = a then a :: l else a :: insertKey k l

/-- What an event does to the layer's copy (R176). -/
def Layer.take (l : Layer) : Event → Layer
  | .begin => l
  | .releaseAll => { l with keys := [] }
  | .press k => { l with keys := insertKey k l.keys }
  | .setDpad d => { l with dpad := some d }
  | .commit => { l with committed := some { keys := l.keys, dpad := l.dpad } }
  | .diag _ => l

/-- `Emit(e)`: one event word on the gamepad port, delivered exactly once and in order (R54, R48, R165). -/
def State.emit (e : Event) (s : State) : State :=
  { s with evt := e.word, evtValid := true, events := s.events ++ [e.word], layer := s.layer.take e }

/-! ## Taking a fatal condition, and leaving it (R196, R215) -/

/-- `raise Fatal(code)` (R196): FAULT, one DIAG event, and the HALT phase. Nothing is saved and nothing else changes. -/
def State.fatal (c : FatalCode) (s : State) : State :=
  { State.emit (.diag c) s with fault := c.code, pc := Pc.start .halt }

/-- The reset of the block, the only way out of HALT (R198, R215): the values of R33. The parameters are not state (R216), the environment goes on, and the gamepad layer keeps its last committed report (R216; log 7, log 10). -/
def State.applyReset (s : State) : State :=
  { State.resetWith s.params with
    layer := { Layer.reset with committed := s.layer.committed }
    env := s.env }

/-! ## The accumulators -/

/-- `x <- …; y <- …`. -/
def State.setXY (x y : Acc) (s : State) : State := { s with x := x, y := y }

/-- What a pressed D-pad key of direction `d` adds (R64, R117): plain 8-bit additions. -/
def State.addDir (d : Dir) (s : State) : State := s.setXY (s.x + d.dx) (s.y + d.dy)

/-! ## The transport and the environment -/

/-- A request on `exp_op` (R71, R80). -/
def State.request (op : ExpOp) (s : State) : State := { s with expOp := op }

/-- `Wait(n)`: n ticks of `now` pass (R7, R84; log 5). What passes beyond them is the environment's. -/
def State.wait (n : Nat) (s : State) : State := { s with env := { s.env with now := s.env.now + BitVec.ofNat 32 n } }

/-- The level of a local pin, `PinRead(i)` (R86). -/
def State.pinLevel (s : State) (i : Nat) : Bool := s.env.cfgPin.getLsbD i

/-- The environment's next move: the head of its script, or the next free value (log 3). -/
def Env.move (e : Env) : EnvMove := match e.script with | [] => Config.freeInputs e.draws | m :: _ => m

/-- The input ports after the environment's next move. -/
def Env.advance (e : Env) : Env :=
  let m := e.move
  { now := e.now + m.ticks, rst := m.rst, expDone := m.expDone, expData := m.expData, cfgPin := m.cfgPin,
    script := e.script.tail, draws := e.draws + 1 }

/-- The state after the environment's next move. -/
def State.advanceEnv (s : State) : State := { s with env := s.env.advance }

/-- The strobes `evt_valid` and `exp_op` show what a step put on them until the next step (R32; log 8). -/
def State.quiet (s : State) : State := { s with evtValid := false, expOp := .none }

/-- What follows an instruction that answers a next state. -/
def andThen (r : Result) (f : State → State) : Result :=
  match r with
  | .next t => .next (f t)
  | .fault e => .fault e
  | .refused e => .refused e

end Sys2Proof.Machine
end

