-- ==== Sys2Proof/Machine/Operands.lean ====
section
/-! DEFINITION. How operands are taken apart: the Key Model and the legality of a slot word (R62 to R65), the clamp and the D-pad lookup (R157, R158), the debouncer's transition (R104). -/

namespace Sys2Proof.Machine

/-! ## The Key Model (R62, R63), for `n` regular-button keys (N_BTN_KEYS; log 19) -/

def dpBase (n : Nat) : Nat := n
def lsBase (n : Nat) : Nat := n + 9
def rsBase (n : Nat) : Nat := n + 18
def kNoop (n : Nat) : Nat := n + 27

def isRegularButton (n : Nat) (k : KeyId) : Bool := decide (k.toNat < n)
def isDPadDirection (n : Nat) (k : KeyId) : Bool := decide (dpBase n ≤ k.toNat) && decide (k.toNat < dpBase n + 9)
def isLeftStick (n : Nat) (k : KeyId) : Bool := decide (lsBase n ≤ k.toNat) && decide (k.toNat < lsBase n + 9)
def isRightStick (n : Nat) (k : KeyId) : Bool := decide (rsBase n ≤ k.toNat) && decide (k.toNat < rsBase n + 9)
def isNoop (n : Nat) (k : KeyId) : Bool := decide (k.toNat = kNoop n)

/-- `legal(sw)` (R65): the key has a class, and a turbo tag stands on a regular button only. -/
def legal (n : Nat) (w : SlotWord) : Bool :=
  decide ((slotKey n w).toNat < nKeys n) && (!slotT n w || isRegularButton n (slotKey n w))

/-- The direction a slot word adds to the accumulators when its button is pressed: that of a legal DPAD word (R64, R65). -/
def slotDir (n : Nat) (w : SlotWord) : Option Dir :=
  if legal n w && isDPadDirection n (slotKey n w) then Dir.ofOffset (BitVec.ofNat 5 ((slotKey n w).toNat - dpBase n)) else none

/-! ## SOCD (R157, R158) -/

/-- The clamp to -1, 0, +1: a signed comparison (R157). -/
def clamp (v : Acc) : Acc := if v.slt (-1) then -1 else if BitVec.slt 1 v then 1 else v

/-- DLUT, the nine entries of R158. -/
def dlutTable : List ((Acc × Acc) × Dir) :=
  [((0, 0), .center), ((0, 1), .up), ((1, 1), .upRight), ((1, 0), .right), ((1, -1), .downRight), ((0, -1), .down), ((-1, -1), .downLeft),
   ((-1, 0), .left), ((-1, 1), .upLeft)]

/-- `MemRead(DLUT, (x, y), 4)`: an exact match, no answer for any other pair (R44, R158). -/
def dlut (x y : Acc) : Option Dir := dlutTable.lookup (x, y)

/-! ## The debouncer (R104) -/

/-- `t2 -% t1` as a number of ticks (R6, R31). -/
def elapsed (t2 t1 : Time) : Nat := (t2 - t1).toNat

/-- `Debounce(acc, prev, ts, raw, t)` with window `window` (R104): a raw change restarts the timer, then a reading stable for strictly more than the window is promoted, then the reading is recorded. -/
def debounce (window : Nat) (bank : BankState) (raw : Byte) (t : Time) : BankState :=
  let ts1 := if raw ≠ bank.prev then t else bank.ts
  let acc1 := if window < elapsed t ts1 ∧ raw ≠ bank.acc then raw else bank.acc
  { acc := acc1, prev := raw, ts := ts1 }

/-- The debouncer of a bank. -/
def State.bank (s : State) : Bank → BankState
  | .A => s.bankA
  | .B => s.bankB

/-- `isPressed(b)` (R101): the accepted level of the button's pin is low. No answer for a button that does not exist. -/
def State.isPressed (s : State) (b : BitVec 4) : Option Bool :=
  (memReadPinmap s.params b.toNat).map fun e => !(s.bank (pinBank e)).acc.getLsbD (pinBit e).toNat

end Sys2Proof.Machine
end

