-- ==== Sys2Proof/Machine/Flags.lean ====
section
/-! DEFINITION. The one flag, TURBO_PHASE (R18, R167), and the one-bit and two-bit facts that are functions of the state (R14, R19, R32). -/

namespace Sys2Proof.Machine

/-- The Turbo Phase is due to toggle when at least the period has passed (R167: not strict). -/
def turboDue (period : Nat) (t ts : Time) : Bool := decide (period ≤ elapsed t ts)

/-- TURBO_PHASE after the TURBO step. -/
def State.turboPhaseNext (s : State) : Bool :=
  if turboDue s.params.turboPeriodTicks s.env.now s.turboTs then !s.turboPhase else s.turboPhase

/-- TURBO_TS after the TURBO step: the time just sampled when it toggles (R167, D4). -/
def State.turboTsNext (s : State) : Time :=
  if turboDue s.params.turboPeriodTicks s.env.now s.turboTs then s.env.now else s.turboTs

/-- MODE as a function of the phase (R14): 0 to 5 BOOT, 8 to 14 RUN, 15 HALT. The unused codes 6 and 7 have none (log 11). -/
def Pc.mode (p : Pc) : Option Mode :=
  if p.phase.toNat < 6 then some .boot
  else if p.phase.toNat < 8 then none
  else if p.phase.toNat < 15 then some .run
  else some .halt

/-- MODE (R14). -/
def State.mode (s : State) : Option Mode := s.pc.mode

/-- The output port `halted` (R32). -/
def State.halted (s : State) : Bool := decide (s.mode = some .halt)

/-- The configuration bit CFGEXP reads from a byte: active low (R84, D9). -/
def State.cfgReading (s : State) : Bool := !s.env.expData.getLsbD s.params.cfgExpBit.toNat

/-- Two consecutive readings agree (R84). -/
def State.cfgAgrees (s : State) : Bool := s.cfgPrevV && s.cfgReading == s.cfgPrev

end Sys2Proof.Machine
end

