-- ==== Sys2Proof/Machine/Boot.lean ====
section
/-! DEFINITION. The boot steps (40_config_select R81 to R85, 41_mapping_load R91, R92). -/

namespace Sys2Proof.Machine

/-- PINMODE (R81): the three local pins become pull-up inputs. -/
def execPinmode (s : State) : Result := .next { s with pinPullup := 0b111, pc := Pc.start .expinit }

/-- EXPINIT (R82): the request INIT; the step completes when the transport has finished it (R80, log 6). -/
def execExpinit (s : State) : Result :=
  let s1 := s.request .init
  .next (if s.env.expDone then s1.setPc (Pc.start .cfgdir) else s1)

/-- CFGDIR (R83): the logical values of the three local pins, active low, the first read the most significant. -/
def execCfgdir (s : State) : Result :=
  .next { s with
    cfgDir := BitVec.ofBool (!s.pinLevel 0) ++ BitVec.ofBool (!s.pinLevel 1) ++ BitVec.ofBool (!s.pinLevel 2)
    pc := Pc.start .cfgexp }

/-- The ticks that must pass before the READ of a reading is requested: the debounce delay between two readings, none before the first (R84), and none once they have passed for this reading (log 5). -/
def State.cfgWait (s : State) : Nat := if s.cfgPrevV && !s.cfgWaited then s.params.cfgDebounceTicks else 0

/-- One reading of the expander-routed bit, once the transport has answered: the count of readings, and what the reading decides (R84). The next reading has its Wait before it again. -/
def State.cfgexpReading (s : State) : State :=
  let s1 := { s with cfgReads := s.cfgReads + 1, cfgWaited := false }
  if s.cfgAgrees then
    { s1 with cfgIndex := s.cfgDir ++ BitVec.ofBool s.cfgReading, pc := Pc.start .load }
  else if 0 < s.params.cfgMaxReads ∧ s.params.cfgMaxReads ≤ s.cfgReads + 1 then
    s1.fatal .nonConverge
  else
    { s1 with cfgPrev := s.cfgReading, cfgPrevV := true, pc := Pc.start .cfgexp }

/-- CFGEXP (R84): first the Wait, then the request READ of the configuration bit's bank (R7); a reading when it is answered. Until then the step stays with its request out (log 6), and its Wait is not made again (log 5). -/
def execCfgexp (s : State) : Result :=
  let s1 := (s.wait s.cfgWait).request (readOp s.params.cfgExpBank)
  .next (if s.env.expDone then s1.cfgexpReading else { s1 with cfgWaited := true })

/-- LOAD (R91): every slot register takes the word of configuration CFG_INDEX, legal or not, in one step. CFGRANGE is checked, and cannot arise with a 4-bit index. -/
def execLoad (s : State) : Result :=
  if 16 ≤ s.cfgIndex.toNat then .next (s.fatal .cfgRange)
  else
    match configWords s.params s.cfgIndex.toNat with
    | none => .fault (.outOfRange .maptab)
    | some ws => .next { s with key := ws, pc := Pc.start .begin }

/-- BEGIN (R92): the event BEGIN, and TURBO_TS latched from `now`; the first position of RUN. -/
def execBegin (s : State) : Result := .next { s.emit .begin with turboTs := s.env.now, pc := Pc.start .relall }

end Sys2Proof.Machine
end

