-- ==== Sys2Proof/Machine/Buttons.lean ====
section
/-! DEFINITION. NOOP and the regular-button slot words (43_resolve_slotwords R121 to R123). A slot word never writes `pc` (R120): RESOLVE advances it. -/

namespace Sys2Proof.Machine

/-- NOOP (R121): nothing. -/
def execNoop (s : State) : Result := .next s

/-- `BTN k` (R122): one PRESS event, whatever the Turbo Phase. -/
def execBtn (k : KeyConst) (s : State) : Result := .next (s.emit (.press k))

/-- `BTN.T k` (R123): one PRESS event when the Turbo Phase is on, nothing when it is off. -/
def execBtnT (k : KeyConst) (s : State) : Result := .next (if s.turboPhase then s.emit (.press k) else s)

end Sys2Proof.Machine
end

