-- ==== Sys2Proof/Machine/Dpad.lean ====
section
/-! DEFINITION. The D-pad slot words (43_resolve_slotwords R117, R124 to R132): each adds its (dx, dy) of R64 to the accumulators; no event, no flag. -/

namespace Sys2Proof.Machine

/-- DPAD.C (center), R124. -/
def execDpadC (s : State) : Result := .next (s.addDir .center)

/-- DPAD.U (up), R125. -/
def execDpadU (s : State) : Result := .next (s.addDir .up)

/-- DPAD.UR (up-right), R126. -/
def execDpadUR (s : State) : Result := .next (s.addDir .upRight)

/-- DPAD.R (right), R127. -/
def execDpadR (s : State) : Result := .next (s.addDir .right)

/-- DPAD.DR (down-right), R128. -/
def execDpadDR (s : State) : Result := .next (s.addDir .downRight)

/-- DPAD.D (down), R129. -/
def execDpadD (s : State) : Result := .next (s.addDir .down)

/-- DPAD.DL (down-left), R130. -/
def execDpadDL (s : State) : Result := .next (s.addDir .downLeft)

/-- DPAD.L (left), R131. -/
def execDpadL (s : State) : Result := .next (s.addDir .left)

/-- DPAD.UL (up-left), R132. -/
def execDpadUL (s : State) : Result := .next (s.addDir .upLeft)

end Sys2Proof.Machine
end

