-- ==== Sys2Proof/Machine/Illegal.lean ====
section
/-! DEFINITION. The illegal slot words (43_resolve_slotwords R151): the fatal condition BADSLOT, with no event but its DIAG and x and y unchanged. -/

namespace Sys2Proof.Machine

/-- ILLEGAL.S with T = 0, key below 48 (R151). -/
def execIllegalKey44 (_key : KeyId) (s : State) : Result := .next (s.fatal .badSlot)

/-- ILLEGAL.S with T = 0, key 48 to 63 (R151). -/
def execIllegalKey48 (_key : KeyId) (s : State) : Result := .next (s.fatal .badSlot)

/-- ILLEGAL.S with T = 1, key[4] = 1 (R151). -/
def execIllegalTurboK4 (_k5 : BitVec 1) (_lo : BitVec 4) (s : State) : Result := .next (s.fatal .badSlot)

/-- ILLEGAL.S with T = 1, no regular button, key[4] = 0 (R151). -/
def execIllegalTurboK5 (_key : KeyId) (s : State) : Result := .next (s.fatal .badSlot)

end Sys2Proof.Machine
end

