-- ==== Sys2Proof/Machine/Sticks.lean ====
section
/-! DEFINITION. The left-stick and right-stick slot words (43_resolve_slotwords R118, R119, R133 to R150): a reserved class, legal and without effect (D19). -/

namespace Sys2Proof.Machine

/-- LS.C (R133): no effect. -/
def execLsC (s : State) : Result := .next s

/-- LS.U (R134): no effect. -/
def execLsU (s : State) : Result := .next s

/-- LS.UR (R135): no effect. -/
def execLsUR (s : State) : Result := .next s

/-- LS.R (R136): no effect. -/
def execLsR (s : State) : Result := .next s

/-- LS.DR (R137): no effect. -/
def execLsDR (s : State) : Result := .next s

/-- LS.D (R138): no effect. -/
def execLsD (s : State) : Result := .next s

/-- LS.DL (R139): no effect. -/
def execLsDL (s : State) : Result := .next s

/-- LS.L (R140): no effect. -/
def execLsL (s : State) : Result := .next s

/-- LS.UL (R141): no effect. -/
def execLsUL (s : State) : Result := .next s

/-- RS.C (R142): no effect. -/
def execRsC (s : State) : Result := .next s

/-- RS.U (R143): no effect. -/
def execRsU (s : State) : Result := .next s

/-- RS.UR (R144): no effect. -/
def execRsUR (s : State) : Result := .next s

/-- RS.R (R145): no effect. -/
def execRsR (s : State) : Result := .next s

/-- RS.DR (R146): no effect. -/
def execRsDR (s : State) : Result := .next s

/-- RS.D (R147): no effect. -/
def execRsD (s : State) : Result := .next s

/-- RS.DL (R148): no effect. -/
def execRsDL (s : State) : Result := .next s

/-- RS.L (R149): no effect. -/
def execRsL (s : State) : Result := .next s

/-- RS.UL (R150): no effect. -/
def execRsUL (s : State) : Result := .next s

end Sys2Proof.Machine
end

