-- ==== Sys2Proof/Machine/Cycle.lean ====
section
/-! DEFINITION. The steps of the cycle (44_direction_socd R159, 45_turbo_sequencer R166, R167, R170, R172, 60_exceptions R197), and the execution of a slot word (43_resolve_slotwords R153). -/

namespace Sys2Proof.Machine

/-- RELALL (R166): the event RELEASE_ALL; the accumulators are cleared. -/
def execRelall (s : State) : Result :=
  .next { s.emit .releaseAll with x := 0, y := 0, pc := Pc.start .turbo }

/-- TURBO (R167): the Turbo Phase toggles when its period has passed. -/
def execTurbo (s : State) : Result :=
  .next { s with turboPhase := s.turboPhaseNext, turboTs := s.turboTsNext, pc := Pc.start .sampleA }

/-- `Exec(sw)` (R153): the meaning of the instruction the decoder reads from the slot word. -/
def execSlotWord (w : SlotWord) (s : State) : Result :=
  match decodeSlot s.params.nBtnKeys w with
  | .noop => execNoop s
  | .btn k => execBtn k s
  | .btnT k => execBtnT k s
  | .dpadC => execDpadC s
  | .dpadU => execDpadU s
  | .dpadUR => execDpadUR s
  | .dpadR => execDpadR s
  | .dpadDR => execDpadDR s
  | .dpadD => execDpadD s
  | .dpadDL => execDpadDL s
  | .dpadL => execDpadL s
  | .dpadUL => execDpadUL s
  | .lsC => execLsC s
  | .lsU => execLsU s
  | .lsUR => execLsUR s
  | .lsR => execLsR s
  | .lsDR => execLsDR s
  | .lsD => execLsD s
  | .lsDL => execLsDL s
  | .lsL => execLsL s
  | .lsUL => execLsUL s
  | .rsC => execRsC s
  | .rsU => execRsU s
  | .rsUR => execRsUR s
  | .rsR => execRsR s
  | .rsDR => execRsDR s
  | .rsD => execRsD s
  | .rsDL => execRsDL s
  | .rsL => execRsL s
  | .rsUL => execRsUL s
  | .illegalKey44 key => execIllegalKey44 key s
  | .illegalKey48 key => execIllegalKey48 key s
  | .illegalTurboK4 k5 lo => execIllegalTurboK4 k5 lo s
  | .illegalTurboK5 key => execIllegalTurboK5 key s
  | .pinmode | .expinit | .cfgdir | .cfgexp | .load | .begin | .relall | .turbo | .sampleA | .sampleB
  | .resolve _ _ | .dpadout | .commit | .halt | .evBegin | .evReleaseAll | .evPress _ | .evSetDpad _ | .evCommit
  | .evDiag _ => .refused .notSlotWord

/-- RESOLVE at button `b`, slot `slot` (R170): an unpressed button is skipped; for a pressed one the slot word is executed, and the walk goes on unless the word was illegal, when the fatal entry has written `pc`. A position that no transition writes is refused (93 V3). -/
def execResolve (b : BitVec 4) (slot : BitVec 2) (s : State) : Result :=
  if slot = 0 ∨ s.params.nButtons ≤ b.toNat then .refused .badPosition
  else
    match s.isPressed b with
    | none => .fault (.outOfRange .pinmap)
    | some false => .next (s.setPc (nextButton s.params.nButtons b))
    | some true =>
      match s.readKey slot b with
      | none => .fault (.outOfRange .key)
      | some w =>
        andThen (execSlotWord w s) fun t => if legal s.params.nBtnKeys w then t.setPc (nextSlot s.params.nButtons b slot) else t

/-- DPADOUT (R159): the accumulators are clamped, looked up, and the one SET_DPAD of the cycle is emitted. -/
def execDpadout (s : State) : Result :=
  match dlut (clamp s.x) (clamp s.y) with
  | none => .fault (.outOfRange .dlut)
  | some d => .next (((s.setXY (clamp s.x) (clamp s.y)).emit (.setDpad d)).setPc (Pc.start .commit))

/-- COMMIT (R172): the event COMMIT; the next cycle starts. -/
def execCommit (s : State) : Result := .next ((s.emit .commit).setPc (Pc.start .relall))

/-- HALT (R197): stays. -/
def execHalt (s : State) : Result := .next (s.setPc (Pc.start .halt))

end Sys2Proof.Machine
end

