-- ==== Sys2Proof/Machine/EventWords.lean ====
section
/-! DEFINITION. The event words as instructions (30_encoding R72): each is put on the gamepad port and taken by the layer (45_turbo_sequencer R176; log 14). The sequencer does not move. -/

namespace Sys2Proof.Machine

/-- The event word BEGIN: changes nothing in the layer (R176). -/
def execEvBegin (s : State) : Result := .next (s.emit .begin)

/-- The event word RELEASE_ALL: no key is pressed after it (R176). -/
def execEvReleaseAll (s : State) : Result := .next (s.emit .releaseAll)

/-- The event word PRESS k, k a regular-button key identifier (R72); any other argument is never emitted and is refused (93 V9). -/
def execEvPress (arg : KeyConst) (s : State) : Result :=
  if arg.toNat < s.params.nBtnKeys then .next (s.emit (.press arg)) else .refused .reservedEventArg

/-- The event word SET_DPAD d, d in 0 to 8 (R72); any other argument is never emitted and is refused (93 V9). -/
def execEvSetDpad (arg : BitVec 5) (s : State) : Result :=
  match Dir.ofOffset arg with
  | some d => .next (s.emit (.setDpad d))
  | none => .refused .reservedEventArg

/-- The event word COMMIT: the pair of keys and direction becomes the host's report (R176). -/
def execEvCommit (s : State) : Result := .next (s.emit .commit)

/-- The event word DIAG with a fault code, 1 to 3 (R72); any other argument is never emitted and is refused (93 V9). The word alone halts nothing: the fatal entry does (R196). -/
def execEvDiag (arg : BitVec 5) (s : State) : Result :=
  match FatalCode.ofArg arg with
  | some c => .next (s.emit (.diag c))
  | none => .refused .reservedEventArg

end Sys2Proof.Machine
end

