-- ==== Sys2Proof/Machine/Sample.lean ====
section
/-! DEFINITION. The sample steps of the debouncer (42_debounce R102 to R104): one byte of the bank through the transport, one sample of `now`. -/

namespace Sys2Proof.Machine

/-- SAMPLE.A (R102). Until the transport answers, the step waits with its request out (R80, log 6). -/
def execSampleA (s : State) : Result :=
  let s1 := s.request .readA
  .next (if s.env.expDone then
      { s1 with bankA := debounce s.params.debounceTicks s.bankA s.env.expData s.env.now, pc := Pc.start .sampleB }
    else s1)

/-- SAMPLE.B (R103). -/
def execSampleB (s : State) : Result :=
  let s1 := s.request .readB
  .next (if s.env.expDone then
      { s1 with bankB := debounce s.params.debounceTicks s.bankB s.env.expData s.env.now, pc := Pc.resolveAt 0 1 }
    else s1)

end Sys2Proof.Machine
end

