-- ==== Sys2Proof/Machine/Dispatch.lean ====
section
/-! DEFINITION. The meaning of every instruction, one arm a constructor. -/

namespace Sys2Proof.Machine

def exec (i : Instr) (s : State) : Host.Outcome State Fault Refusal :=
  match i with
  | .noop => Sys2Proof.Machine.execNoop s
  | .btn k => Sys2Proof.Machine.execBtn k s
  | .btnT k => Sys2Proof.Machine.execBtnT k s
  | .dpadC => Sys2Proof.Machine.execDpadC s
  | .dpadU => Sys2Proof.Machine.execDpadU s
  | .dpadUR => Sys2Proof.Machine.execDpadUR s
  | .dpadR => Sys2Proof.Machine.execDpadR s
  | .dpadDR => Sys2Proof.Machine.execDpadDR s
  | .dpadD => Sys2Proof.Machine.execDpadD s
  | .dpadDL => Sys2Proof.Machine.execDpadDL s
  | .dpadL => Sys2Proof.Machine.execDpadL s
  | .dpadUL => Sys2Proof.Machine.execDpadUL s
  | .lsC => Sys2Proof.Machine.execLsC s
  | .lsU => Sys2Proof.Machine.execLsU s
  | .lsUR => Sys2Proof.Machine.execLsUR s
  | .lsR => Sys2Proof.Machine.execLsR s
  | .lsDR => Sys2Proof.Machine.execLsDR s
  | .lsD => Sys2Proof.Machine.execLsD s
  | .lsDL => Sys2Proof.Machine.execLsDL s
  | .lsL => Sys2Proof.Machine.execLsL s
  | .lsUL => Sys2Proof.Machine.execLsUL s
  | .rsC => Sys2Proof.Machine.execRsC s
  | .rsU => Sys2Proof.Machine.execRsU s
  | .rsUR => Sys2Proof.Machine.execRsUR s
  | .rsR => Sys2Proof.Machine.execRsR s
  | .rsDR => Sys2Proof.Machine.execRsDR s
  | .rsD => Sys2Proof.Machine.execRsD s
  | .rsDL => Sys2Proof.Machine.execRsDL s
  | .rsL => Sys2Proof.Machine.execRsL s
  | .rsUL => Sys2Proof.Machine.execRsUL s
  | .illegalKey44 key => Sys2Proof.Machine.execIllegalKey44 key s
  | .illegalKey48 key => Sys2Proof.Machine.execIllegalKey48 key s
  | .illegalTurboK4 k5 lo => Sys2Proof.Machine.execIllegalTurboK4 k5 lo s
  | .illegalTurboK5 key => Sys2Proof.Machine.execIllegalTurboK5 key s
  | .pinmode => Sys2Proof.Machine.execPinmode s
  | .expinit => Sys2Proof.Machine.execExpinit s
  | .cfgdir => Sys2Proof.Machine.execCfgdir s
  | .cfgexp => Sys2Proof.Machine.execCfgexp s
  | .load => Sys2Proof.Machine.execLoad s
  | .begin => Sys2Proof.Machine.execBegin s
  | .relall => Sys2Proof.Machine.execRelall s
  | .turbo => Sys2Proof.Machine.execTurbo s
  | .sampleA => Sys2Proof.Machine.execSampleA s
  | .sampleB => Sys2Proof.Machine.execSampleB s
  | .resolve b slot => Sys2Proof.Machine.execResolve b slot s
  | .dpadout => Sys2Proof.Machine.execDpadout s
  | .commit => Sys2Proof.Machine.execCommit s
  | .halt => Sys2Proof.Machine.execHalt s
  | .evBegin => Sys2Proof.Machine.execEvBegin s
  | .evReleaseAll => Sys2Proof.Machine.execEvReleaseAll s
  | .evPress arg => Sys2Proof.Machine.execEvPress arg s
  | .evSetDpad arg => Sys2Proof.Machine.execEvSetDpad arg s
  | .evCommit => Sys2Proof.Machine.execEvCommit s
  | .evDiag arg => Sys2Proof.Machine.execEvDiag arg s

end Sys2Proof.Machine
end

