-- ==== Sys2Proof/Machine/Step.lean ====
section
/-! DEFINITION. One step of the machine: reset if `rst` is high, else the instruction at the sequencer position; then the environment moves. And the state that has a given instruction where the next step fetches it. -/

namespace Sys2Proof.Machine

/-- What the decoder reads at the sequencer position (R70: the phase field is the opcode). -/
def State.fetch (s : State) : Decoded := decode s.params.nBtnKeys (.pos s.pc.word)

/-- One step (R8). `rst` wins over everything (R201, R215). Otherwise the strobes of the step before are cleared (log 8) and the phase's instruction is executed; a `pc` value that no transition writes is refused (93 V3). After either, the environment moves (R30, log 3). -/
def step (s : State) : Host.Outcome State Fault Refusal :=
  if s.env.rst then .next s.applyReset.advanceEnv
  else
    match s.fetch with
    | .ok i => andThen (exec i s.quiet) State.advanceEnv
    | .reject _ => .refused .badPosition

/-! ## Placing an instruction where the next step fetches it (log 17) -/

/-- Button `b` held: the accepted level of its pin is low. -/
def State.hold (s : State) (b : BitVec 4) : State :=
  match memReadPinmap s.params b.toNat with
  | none => s
  | some e =>
    let press (k : BankState) : BankState := { k with acc := k.acc &&& ~~~(1#8 <<< (pinBit e).toNat) }
    match pinBank e with
    | .A => { s with bankA := press s.bankA }
    | .B => { s with bankB := press s.bankB }

/-- A slot word where RESOLVE fetches it: in KEY[1][0], with button 0 held and the sequencer at (RESOLVE, 0, 1). -/
def State.placeSlot (s : State) (w : SlotWord) : State :=
  { s.hold 0 with key := w :: s.key.drop 1, pc := Pc.resolveAt 0 1 }

/-- An event word is not fetched: it is put on the port by a step. COMMIT is placed by placing the step that emits it, the DIAG of BADSLOT by placing an illegal slot word (0x7F is one for every N_BTN_KEYS); no other state of the block is made. -/
def State.placeEvent (s : State) (w : EventWord) : State :=
  if w = Event.commit.word then s.setPc (Pc.start .commit)
  else if w = (Event.diag .badSlot).word then s.placeSlot 0x7F
  else s

/-- `s` with the instruction whose bits are `w` where the next step fetches it (log 16, log 17). -/
def State.withFetchWord (s : State) (nbits w : Nat) : State :=
  match codeOfTable nbits w with
  | .slot v => s.placeSlot v
  | .pos v => s.setPc (Pc.ofWord v)
  | .event v => s.placeEvent v

end Sys2Proof.Machine
end

