-- ==== Sys2Proof/Machine/CycleFunction.lean ====
section
/-! DEFINITION. The whole cycle as one function of the state and its five oracle answers (45_turbo_sequencer R173), written from that rule and not from the steps: an obligation says that the steps compose to it. -/

namespace Sys2Proof.Machine

/-- What the walk of a cycle has made so far: the accumulators, the event words, and whether an illegal word has ended it. -/
structure Walk where
  x : Acc
  y : Acc
  ev : List EventWord
  halted : Bool
deriving DecidableEq, Repr

/-- One slot word of a pressed button in the walk of R173, for `n` regular-button keys; nothing happens any more after an illegal word. -/
def Walk.word (n : Nat) (phase : Bool) (a : Walk) (sw : SlotWord) : Walk :=
  if a.halted then a
  else if legal n sw = false then { a with ev := a.ev ++ [0xE3], halted := true }
  else if isRegularButton n (slotKey n sw) then
    if slotT n sw = false ∨ phase = true then { a with ev := a.ev ++ [0x40 + (slotKey n sw).setWidth 8] } else a
  else
    match slotDir n sw with
    | some d => { a with x := a.x + d.dx, y := a.y + d.dy }
    | none => a

/-- The slot words of the pressed buttons, in the order of the walk (R170, R173). -/
def State.pressedWords (s : State) : List SlotWord :=
  (List.range s.params.nButtons).flatMap fun b =>
    if s.isPressed (BitVec.ofNat 4 b) = some true then (s.key.drop (3 * b)).take 3 else []

/-- The state in which a cycle's walk runs: TURBO and the two SAMPLE steps have been made (R173). -/
def State.cycleSampled (s : State) (tT : Time) (rawA : Byte) (tA : Time) (rawB : Byte) (tB : Time) : State :=
  let due := s.params.turboPeriodTicks ≤ elapsed tT s.turboTs
  { s with
    turboPhase := if due then !s.turboPhase else s.turboPhase
    turboTs := if due then tT else s.turboTs
    bankA := debounce s.params.debounceTicks s.bankA rawA tA
    bankB := debounce s.params.debounceTicks s.bankB rawB tB }

/-- `Cycle(S, tT, rawA, tA, rawB, tB)` of R173: the new state, but for the ports, and the cycle's event list. -/
def State.cycle (s : State) (tT : Time) (rawA : Byte) (tA : Time) (rawB : Byte) (tB : Time) : State × List EventWord :=
  let r := s.cycleSampled tT rawA tA rawB tB
  let w := r.pressedWords.foldl (Walk.word s.params.nBtnKeys r.turboPhase) { x := 0, y := 0, ev := [0x20], halted := false }
  if w.halted then ({ r with x := w.x, y := w.y, fault := 3, pc := ⟨15, 0, 0⟩ }, w.ev)
  else
    let d := ((dlut (clamp w.x) (clamp w.y)).map Dir.offset).getD 0
    ({ r with x := clamp w.x, y := clamp w.y, pc := ⟨8, 0, 0⟩ }, w.ev ++ [0x60 + d.setWidth 8, 0x80])

end Sys2Proof.Machine
end

