-- ==== Sys2Proof/Safety.lean ====
section
/-! DEFINITION. The terms in which the statements speak: legal parameters, the invariants of 10_state R35 and of the rules they rest on, the event grammar of R175, and what it means not to depend on an unwritten register (R33). -/

namespace Sys2Proof.Machine

/-! ## The parameters -/

/-- What the last section of 92_eei_decisions.md, R5, R41 and R77 ask of the parameters; that a button key fits the 5 bits of a PRESS argument (R72) bounds N_BTN_KEYS (log 19). -/
structure LegalParams (p : Params) : Prop where
  buttons_ge : 9 ≤ p.nButtons
  buttons_le : p.nButtons ≤ 15
  pinmap_length : p.pinmap.length = p.nButtons
  pinmap_nodup : p.pinmap.Nodup
  pinmap_avoids_cfg : pinEntry p.cfgExpBank p.cfgExpBit ∉ p.pinmap
  keys_le : p.nBtnKeys ≤ 32
  maptab_wf : Memory.wf p.nBtnKeys p.maptab = true
  maptab_range : ∀ cell ∈ p.maptab, cell.1 < 48 * p.nButtons ∧ cell.2.toNat < 2 ^ (keyW p.nBtnKeys + 1)
  reads_legal : p.cfgMaxReads ≠ 1
  debounce_lt : p.debounceTicks < 2 ^ 31
  turbo_lt : p.turboPeriodTicks < 2 ^ 31

/-- WF_MAPTAB (R68): every word of every configuration is legal. -/
def WfMaptab (p : Params) : Prop :=
  ∀ c b s, c < 16 → b < p.nButtons → 1 ≤ s → s ≤ 3 →
    ∃ w, memReadMaptab p (maddr p.nButtons c b s) = some w ∧ legal p.nBtnKeys w = true

/-! ## Positions, modes and the fault code -/

/-- The positions the transitions of R17 write: b and s are 0 outside RESOLVE; in RESOLVE b is a button and s is 1 to 3; the codes 6 and 7 are unused (R70). -/
def Pc.legal (nButtons : Nat) (p : Pc) : Bool :=
  if p.phase = Phase.resolve.code then decide (p.slot ≠ 0) && decide (p.b.toNat < nButtons)
  else decide (p.phase ≠ 6) && decide (p.phase ≠ 7) && decide (p.b = 0) && decide (p.slot = 0)

/-- FAULT is not 0 exactly when MODE is HALT (R35 d). -/
def FaultMarksHalt (s : State) : Prop := s.fault ≠ 0 ↔ s.mode = some .halt

/-- A legal position of a machine with legal parameters, with the fault code that goes with it, and a Wait that has passed only in CFGEXP. -/
structure Sound (s : State) : Prop where
  params : LegalParams s.params
  pc : s.pc.legal s.params.nButtons = true
  fault : FaultMarksHalt s
  waited : s.cfgWaited = true → s.pc = Pc.start .cfgexp

/-! ## The Active Mapping (R35 a, R93) -/

/-- The phases after LOAD, HALT apart: BEGIN and the phases of RUN. -/
def Pc.loaded (p : Pc) : Bool := decide (5 ≤ p.phase.toNat) && decide (p.phase.toNat < 15)

/-- Every slot register holds MAPTAB's word for configuration CFG_INDEX. -/
def KeysMatchConfig (s : State) : Prop :=
  ∀ (b : BitVec 4) (slot : BitVec 2), slot ≠ 0 → b.toNat < s.params.nButtons →
    ∃ w, s.readKey slot b = some w ∧
      memReadMaptab s.params (maddr s.params.nButtons s.cfgIndex.toNat b.toNat slot.toNat) = some w

/-- R35 (a). -/
def MappingLoaded (s : State) : Prop := s.pc.loaded = true → KeysMatchConfig s

/-! ## The accumulators (R35 b and c, R156) -/

/-- The direction that the j-th position of the RESOLVE walk (button j/3, slot j%3 + 1) adds: that of a DPAD word in the slot of a pressed button. -/
def State.walkDir (s : State) (j : Nat) : Option Dir :=
  if s.isPressed (BitVec.ofNat 4 (j / 3)) = some true then s.key[j]?.bind (slotDir s.params.nBtnKeys) else none

/-- The sum of dx over the first n positions of the walk, as an integer (R156). -/
def State.sumX (s : State) : Nat → Int
  | 0 => 0
  | n + 1 => s.sumX n + ((s.walkDir n).map fun d => d.dx.toInt).getD 0

/-- The sum of dy over the first n positions of the walk, as an integer (R156). -/
def State.sumY (s : State) : Nat → Int
  | 0 => 0
  | n + 1 => s.sumY n + ((s.walkDir n).map fun d => d.dy.toInt).getD 0

/-- Where the walk stands at a RESOLVE position: how many positions lie before it. -/
def Pc.walked (p : Pc) : Nat := 3 * p.b.toNat + (p.slot.toNat - 1)

/-- What x and y hold in each phase of a cycle: 0 before the walk, the sum so far in it, the whole sum at DPADOUT, and its sign, shown on the D-pad, at COMMIT. -/
structure AccumulatorsSum (s : State) : Prop where
  before : s.pc = Pc.start .turbo ∨ s.pc = Pc.start .sampleA ∨ s.pc = Pc.start .sampleB → s.x = 0 ∧ s.y = 0
  during : s.pc.phase = Phase.resolve.code → s.x.toInt = s.sumX s.pc.walked ∧ s.y.toInt = s.sumY s.pc.walked
  whole : s.pc = Pc.start .dpadout →
    s.x.toInt = s.sumX (3 * s.params.nButtons) ∧ s.y.toInt = s.sumY (3 * s.params.nButtons)
  shown : s.pc = Pc.start .commit →
    s.x.toInt = (s.sumX (3 * s.params.nButtons)).sign ∧ s.y.toInt = (s.sumY (3 * s.params.nButtons)).sign ∧
    ∃ d, s.layer.dpad = some d ∧ d.dx = s.x ∧ d.dy = s.y

/-! ## The event stream (R175) -/

/-- Where an event stream stands in the grammar of R175. -/
inductive StreamPos where
  /-- Nothing emitted yet. -/
  | fresh
  /-- After BEGIN or COMMIT. -/
  | between
  /-- After RELEASE_ALL and any PRESS events. -/
  | open_
  /-- After SET_DPAD. -/
  | closed
  /-- After DIAG. -/
  | dead
deriving DecidableEq, Repr

/-- The grammar of R175 as an automaton over event words, for `n` regular-button keys; `none` where the word may not come. -/
def StreamPos.next (n : Nat) (p : StreamPos) (w : EventWord) : Option StreamPos :=
  match p with
  | .fresh => if w = 0x00 then some .between else if w = 0xE1 ∨ w = 0xE2 then some .dead else none
  | .between => if w = 0x20 then some .open_ else none
  | .open_ =>
    if w.extractLsb' 5 3 = 2 ∧ (w.extractLsb' 0 5).toNat < n then some .open_
    else if 0x60 ≤ w.toNat ∧ w.toNat ≤ 0x68 then some .closed
    else if w = 0xE3 then some .dead
    else none
  | .closed => if w = 0x80 then some .between else none
  | .dead => none

/-- Where a whole stream stands, if it is in the grammar. -/
def scanStream (n : Nat) (ws : List EventWord) : Option StreamPos := ws.foldlM (StreamPos.next n) .fresh

/-- Where the stream stands when the sequencer is at a phase. -/
def Pc.streamPos (p : Pc) : StreamPos :=
  if p.phase.toNat < 8 then .fresh
  else if p.phase.toNat = 8 then .between
  else if p.phase.toNat < 14 then .open_
  else if p.phase.toNat = 14 then .closed
  else .dead

/-- The stream emitted so far is in the grammar, at the place its phase says. -/
def StreamFollowsGrammar (s : State) : Prop := scanStream s.params.nBtnKeys s.events = some s.pc.streamPos

/-! ## The report (R176) -/

/-- REPORT_KEYS is listed in rising order, so without repeats: equal sets are equal lists. -/
def Layer.sorted (l : Layer) : Prop := l.keys.Pairwise fun a b => a.toNat < b.toNat

/-! ## Runs that cannot halt (R218) -/

/-- With WF_MAPTAB and no cap on the boot-time readings: not in HALT, and no illegal word in the Active Mapping once it is loaded. -/
structure CannotHalt (s : State) : Prop where
  params : LegalParams s.params
  maptab : WfMaptab s.params
  uncapped : s.params.cfgMaxReads = 0
  running : s.pc.phase ≠ Phase.halt.code
  mapping : MappingLoaded s

/-! ## Registers that hold no value (R33) -/

/-- The state with 0 in every register that, at its position, has not been written since reset, or (x and y at RELALL, all of them at HALT) is not read before its next write. -/
def State.forget (s : State) : State :=
  let n := s.pc.phase.toNat
  { s with
    key := if n ≤ 4 ∨ n = 15 then [] else s.key
    x := if n ≤ 5 ∨ n = 8 ∨ n = 15 then 0 else s.x
    y := if n ≤ 5 ∨ n = 8 ∨ n = 15 then 0 else s.y
    turboTs := if n ≤ 5 ∨ n = 15 then 0 else s.turboTs
    cfgIndex := if n ≤ 3 ∨ n = 15 then 0 else s.cfgIndex
    cfgDir := if n ≤ 2 ∨ n = 15 then 0 else s.cfgDir
    cfgPrev := if (n ≤ 3 ∧ s.cfgPrevV = false) ∨ n = 15 then false else s.cfgPrev }

/-- Two outcomes that differ at most in such registers. -/
def SameOutcome : Result → Result → Prop
  | .next s, .next t => s.forget = t.forget
  | .fault a, .fault b => a = b
  | .refused a, .refused b => a = b
  | _, _ => False

/-! ## What a safe run is -/

/-- A run that has met no fatal condition: FAULT is 0 and the control loop is not halted (R197). -/
def State.safe (s : State) : Prop := s.fault = 0 ∧ s.halted = false

end Sys2Proof.Machine
end

