-- ==== Sys2Proof/Certificates/Slice0/Obligations.lean ====
section
/-! DEFINITION. The statements for the provers, from the numbered rules of spec/. OBLIGATIONS.json lists them. -/

open Sys2Proof Sys2Proof.Machine

/-! ## Encodings and the Key Model -/

/-- Encoding and then decoding gives the instruction back, for every N_BTN_KEYS: no operand bit of R60 to R72 is dropped, and the word fits its format. N_BTN_KEYS is at most 32 throughout (log 19). -/
def Obligations.DecodingUndoesEncoding : Prop :=
  ∀ (n : Nat) (i : Instr), n ≤ 32 → i.wf n = true → decode n (encode n i) = .ok i ∧ (encode n i).fits n = true

/-- A word of its format that decodes to a well-formed instruction is that instruction's one encoding: two words never stand for one instruction. -/
def Obligations.EncodingUndoesDecoding : Prop :=
  ∀ (n : Nat) (c : Code) (i : Instr), n ≤ 32 → c.fits n = true → decode n c = .ok i → i.wf n = true → encode n i = c

/-- R66's division of the 128 slot words of the reference into its eight ranges. -/
def Obligations.SlotWordsDivideAsTabled : Prop :=
  ∀ w : SlotWord,
    (w.toNat ≤ 0x0F → decodeSlot refBtnKeys w = .btn (w.setWidth 5) ∧ legal refBtnKeys w = true) ∧
    (0x40 ≤ w.toNat → w.toNat ≤ 0x4F → decodeSlot refBtnKeys w = .btnT ((w - 0x40).setWidth 5) ∧ legal refBtnKeys w = true) ∧
    (0x10 ≤ w.toNat → w.toNat ≤ 0x18 → isDPadDirection refBtnKeys (slotKey refBtnKeys w) = true ∧ legal refBtnKeys w = true) ∧
    (0x19 ≤ w.toNat → w.toNat ≤ 0x21 → isLeftStick refBtnKeys (slotKey refBtnKeys w) = true ∧ legal refBtnKeys w = true) ∧
    (0x22 ≤ w.toNat → w.toNat ≤ 0x2A → isRightStick refBtnKeys (slotKey refBtnKeys w) = true ∧ legal refBtnKeys w = true) ∧
    (w = 0x2B → decodeSlot refBtnKeys w = .noop ∧ legal refBtnKeys w = true) ∧
    (0x2C ≤ w.toNat → w.toNat ≤ 0x3F → legal refBtnKeys w = false) ∧
    (0x50 ≤ w.toNat → legal refBtnKeys w = false)

/-- Words of R64, R65, R66, R70 and R72 at the reference, and the reference vectors DE1 to DE11, decode to the instructions they stand for. Of the two rows of R76 that select 0x7F the model takes the one with mask 0x50: that is its own choice (log 15, DEDUCED). -/
def Obligations.TabledWordsDecode : Prop :=
  decodeSlot refBtnKeys 0x00 = .btn 0 ∧ decodeSlot refBtnKeys 0x43 = .btnT 3 ∧ decodeSlot refBtnKeys 0x4F = .btnT 15 ∧
  decodeSlot refBtnKeys 0x2B = .noop ∧ decodeSlot refBtnKeys 0x18 = .dpadUL ∧ decodeSlot refBtnKeys 0x19 = .lsC ∧
  decodeSlot refBtnKeys 0x2A = .rsUL ∧ decodeSlot refBtnKeys 0x2C = .illegalKey44 44 ∧
  decodeSlot refBtnKeys 0x3F = .illegalKey48 63 ∧ decodeSlot refBtnKeys 0x50 = .illegalTurboK4 0 0 ∧
  decodeSlot refBtnKeys 0x6B = .illegalTurboK5 43 ∧ decodeSlot refBtnKeys 0x7F = .illegalTurboK4 1 15 ∧
  decode refBtnKeys (.pos 0x000) = .ok .pinmode ∧ decode refBtnKeys (.pos 0x0C0) = .ok .cfgexp ∧
  decode refBtnKeys (.pos 0x200) = .ok .relall ∧ decode refBtnKeys (.pos 0x311) = .ok (.resolve 4 1) ∧
  decode refBtnKeys (.pos 0x33B) = .ok (.resolve 14 3) ∧ decode refBtnKeys (.pos 0x3C0) = .ok .halt ∧
  decode refBtnKeys (.event 0x20) = .ok .evReleaseAll ∧ decode refBtnKeys (.event 0x4F) = .ok (.evPress 15) ∧
  decode refBtnKeys (.event 0x68) = .ok (.evSetDpad 8) ∧ decode refBtnKeys (.event 0xE3) = .ok (.evDiag 3)

/-- R63: the five predicates are the ranges of R62's general form; each identifier below N_KEYS has exactly one class, the others have none. -/
def Obligations.KeyClassesPartition : Prop :=
  ∀ (n : Nat) (k : KeyId),
    isRegularButton n k = decide (k.toNat < n) ∧
    isDPadDirection n k = decide (n ≤ k.toNat ∧ k.toNat ≤ n + 8) ∧
    isLeftStick n k = decide (n + 9 ≤ k.toNat ∧ k.toNat ≤ n + 17) ∧
    isRightStick n k = decide (n + 18 ≤ k.toNat ∧ k.toNat ≤ n + 26) ∧
    isNoop n k = decide (k.toNat = n + 27) ∧
    ([isRegularButton n k, isDPadDirection n k, isLeftStick n k, isRightStick n k, isNoop n k].count true =
      if k.toNat < n + 28 then 1 else 0)

/-! ## Slot words -/

/-- R121: NOOP changes nothing; with the turbo tag the word is not NOOP but illegal: 0x2B and 0x6B at the reference. For another N_BTN_KEYS, up to 32, the key is N_BTN_KEYS + 27 (R62, R76), and the tagged word has T in the bit above a key field of KEY_W bits (R60): that and the bound are the model's reading (log 19, DEDUCED). -/
def Obligations.NoopChangesNothing : Prop :=
  decodeSlot refBtnKeys 0x2B = .noop ∧ legal refBtnKeys 0x6B = false ∧
  (∀ n ≤ 32, decodeSlot n (BitVec.ofNat 7 (n + 27)) = .noop ∧ legal n (BitVec.ofNat 7 (2 ^ keyW n + n + 27)) = false) ∧
  ∀ s, exec .noop s = .next s

/-- R133 to R141: the nine left-stick words have no effect; their words at the reference, and by the ranges of R62 for another N_BTN_KEYS. -/
def Obligations.LeftStickWordsChangeNothing : Prop :=
  ∀ e ∈ [((0x19 : SlotWord), Instr.lsC), (0x1A, .lsU), (0x1B, .lsUR), (0x1C, .lsR), (0x1D, .lsDR), (0x1E, .lsD),
      (0x1F, .lsDL), (0x20, .lsL), (0x21, .lsUL)],
    decodeSlot refBtnKeys e.1 = e.2 ∧
    (∀ n ≤ 32, decodeSlot n (BitVec.ofNat 7 (n + (e.1.toNat - 16))) = e.2) ∧
    ∀ s, exec e.2 s = .next s

/-- R142 to R150: the nine right-stick words have no effect; their words at the reference, and by the ranges of R62 for another N_BTN_KEYS. -/
def Obligations.RightStickWordsChangeNothing : Prop :=
  ∀ e ∈ [((0x22 : SlotWord), Instr.rsC), (0x23, .rsU), (0x24, .rsUR), (0x25, .rsR), (0x26, .rsDR), (0x27, .rsD),
      (0x28, .rsDL), (0x29, .rsL), (0x2A, .rsUL)],
    decodeSlot refBtnKeys e.1 = e.2 ∧
    (∀ n ≤ 32, decodeSlot n (BitVec.ofNat 7 (n + (e.1.toNat - 16))) = e.2) ∧
    ∀ s, exec e.2 s = .next s

/-- R124 to R132: each of the nine D-pad words adds its increments to x and y, and does nothing else; their words at the reference, and by the ranges of R62 for another N_BTN_KEYS. -/
def Obligations.DpadWordsMoveTheAccumulators : Prop :=
  (∀ e ∈ [((0x10 : SlotWord), Instr.dpadC), (0x11, .dpadU), (0x12, .dpadUR), (0x13, .dpadR), (0x14, .dpadDR), (0x15, .dpadD),
      (0x16, .dpadDL), (0x17, .dpadL), (0x18, .dpadUL)],
    decodeSlot refBtnKeys e.1 = e.2 ∧ ∀ n ≤ 32, decodeSlot n (BitVec.ofNat 7 (n + (e.1.toNat - 16))) = e.2) ∧
  ∀ s : State,
    exec .dpadC s = .next s ∧
    exec .dpadU s = .next { s with y := s.y + 1 } ∧
    exec .dpadUR s = .next { s with x := s.x + 1, y := s.y + 1 } ∧
    exec .dpadR s = .next { s with x := s.x + 1 } ∧
    exec .dpadDR s = .next { s with x := s.x + 1, y := s.y - 1 } ∧
    exec .dpadD s = .next { s with y := s.y - 1 } ∧
    exec .dpadDL s = .next { s with x := s.x - 1, y := s.y - 1 } ∧
    exec .dpadL s = .next { s with x := s.x - 1 } ∧
    exec .dpadUL s = .next { s with x := s.x - 1, y := s.y + 1 }

/-- R161: below the bound of 45 presses the 8-bit additions of every D-pad word equal integer additions. -/
def Obligations.DpadAdditionsNeverWrap : Prop :=
  ∀ (w : SlotWord) (d : Dir) (s : State), slotDir s.params.nBtnKeys w = some d →
    -45 < s.x.toInt → s.x.toInt < 45 → -45 < s.y.toInt → s.y.toInt < 45 →
    ∃ t, exec (decodeSlot s.params.nBtnKeys w) s = .next t ∧
      t.x.toInt = s.x.toInt + d.dx.toInt ∧ t.y.toInt = s.y.toInt + d.dy.toInt ∧ t = { s with x := t.x, y := t.y }

/-- R122: `BTN k` emits PRESS k, event word 0x40 + k, whatever the Turbo Phase; k joins REPORT_KEYS (R176); nothing else changes. Its word is k for each regular-button key. -/
def Obligations.ButtonWordPressesItsKey : Prop :=
  ∀ (k : KeyConst) (s : State),
    (k.toNat < s.params.nBtnKeys → decodeSlot s.params.nBtnKeys (k.setWidth 7) = .btn k) ∧
    ∃ t, exec (.btn k) s = .next t ∧
      t.evt = 0x40 + k.setWidth 8 ∧ t.evtValid = true ∧ t.events = s.events ++ [0x40 + k.setWidth 8] ∧
      (∀ j, j ∈ t.layer.keys ↔ j = k ∨ j ∈ s.layer.keys) ∧
      t.layer = { s.layer with keys := t.layer.keys } ∧
      t = { s with evt := t.evt, evtValid := t.evtValid, events := t.events, layer := t.layer }

/-- R123: `BTN.T k` does what `BTN k` does while TURBO_PHASE is on, and nothing while it is off. Its word is the turbo tag with k: 0x40 + k at the reference. For another N_BTN_KEYS, up to 32, it is 2^KEY_W + k, with T in the bit above a key field of KEY_W bits (R5, R60, R62, R76): that and the bound are the model's reading (log 19, DEDUCED). -/
def Obligations.TurboButtonPressesOnlyWhenOn : Prop :=
  ∀ (k : KeyConst) (s : State),
    (k.toNat < 16 → decodeSlot refBtnKeys (0x40 + k.setWidth 7) = .btnT k) ∧
    (s.params.nBtnKeys ≤ 32 → k.toNat < s.params.nBtnKeys →
      decodeSlot s.params.nBtnKeys (BitVec.ofNat 7 (2 ^ keyW s.params.nBtnKeys + k.toNat)) = .btnT k) ∧
    (s.turboPhase = false → exec (.btnT k) s = .next s) ∧
    (s.turboPhase = true → ∃ t, exec (.btnT k) s = .next t ∧
      t.evt = 0x40 + k.setWidth 8 ∧ t.evtValid = true ∧ t.events = s.events ++ [0x40 + k.setWidth 8] ∧
      (∀ j, j ∈ t.layer.keys ↔ j = k ∨ j ∈ s.layer.keys) ∧
      t.layer = { s.layer with keys := t.layer.keys } ∧
      t = { s with evt := t.evt, evtValid := t.evtValid, events := t.events, layer := t.layer })

/-- R151: at the reference the illegal words are the 68 words 0x2C to 0x3F and 0x50 to 0x7F; for every N_BTN_KEYS an illegal word takes the fatal entry BADSLOT (R196): FAULT = 3, one DIAG event 0xE3, the HALT position; nothing else changes. -/
def Obligations.IllegalWordsTakeBadSlot : Prop :=
  (∀ w : SlotWord, legal refBtnKeys w = false ↔ (0x2C ≤ w.toNat ∧ w.toNat ≤ 0x3F) ∨ 0x50 ≤ w.toNat) ∧
  ∀ (w : SlotWord) (s : State), legal s.params.nBtnKeys w = false →
    exec (decodeSlot s.params.nBtnKeys w) s =
      .next { s with fault := 3, evt := 0xE3, evtValid := true, events := s.events ++ [0xE3], pc := ⟨15, 0, 0⟩ }

/-- The four ILLEGAL.S instructions, whatever their free bits: each is the fatal entry BADSLOT (R151, R196). -/
def Obligations.EveryIllegalRowHalts : Prop :=
  ∀ (s : State) (a b e : KeyId) (k5 : BitVec 1) (lo : BitVec 4),
    ∀ i ∈ [Instr.illegalKey44 a, .illegalKey48 b, .illegalTurboK4 k5 lo, .illegalTurboK5 e],
      exec i s =
        .next { s with fault := 3, evt := 0xE3, evtValid := true, events := s.events ++ [0xE3], pc := ⟨15, 0, 0⟩ }

/-- R120: a legal slot word completes in every state, may add to x and y or issue one PRESS event of a regular-button key, and does nothing else. -/
def Obligations.LegalWordsDoNothingElse : Prop :=
  ∀ (w : SlotWord) (s : State), legal s.params.nBtnKeys w = true →
    ∃ t, exec (decodeSlot s.params.nBtnKeys w) s = .next t ∧
      (t = { s with x := t.x, y := t.y } ∨
       ∃ k : KeyConst, k.toNat < s.params.nBtnKeys ∧ t.events = s.events ++ [0x40 + k.setWidth 8] ∧
         t = { s with evt := 0x40 + k.setWidth 8, evtValid := true, events := t.events, layer := t.layer })

/-! ## Boot -/

/-- R81. -/
def Obligations.PinmodeSetsThePullups : Prop :=
  ∀ s : State, exec .pinmode s = .next { s with pinPullup := 0b111, pc := ⟨1, 0, 0⟩ }

/-- R82: the request INIT is shown; the step ends when the transport has finished, and waits before that (R80; the waiting's form is the model's choice, log 6). -/
def Obligations.ExpinitRequestsInit : Prop :=
  ∀ s : State,
    (s.env.expDone = true → exec .expinit s = .next { s with expOp := .init, pc := ⟨2, 0, 0⟩ }) ∧
    (s.env.expDone = false → exec .expinit s = .next { s with expOp := .init })

/-- R83: CFG_DIR takes the inverted levels of pins 0, 1, 2, pin 0 the most significant. -/
def Obligations.CfgdirReadsThePinsActiveLow : Prop :=
  ∀ s : State, ∃ t, exec .cfgdir s = .next t ∧
    t.cfgDir.getLsbD 2 = !s.env.cfgPin.getLsbD 0 ∧
    t.cfgDir.getLsbD 1 = !s.env.cfgPin.getLsbD 1 ∧
    t.cfgDir.getLsbD 0 = !s.env.cfgPin.getLsbD 2 ∧
    t = { s with cfgDir := t.cfgDir, pc := ⟨3, 0, 0⟩ }

/-- R84 and R85: the reading that agrees with the one before comes after the debounce delay, is counted, forms CFG_INDEX = 8*c0 + 4*c1 + 2*c2 + c3, which is below 16, and ends the selection. That the delay passes in the model step that first requests the READ is the model's reading (log 5). -/
def Obligations.CfgexpEndsOnAgreement : Prop :=
  ∀ (s : State) (r : Bool), s.env.expDone = true → s.cfgPrevV = true →
    r = !s.env.expData.getLsbD s.params.cfgExpBit.toNat → r = s.cfgPrev →
    ∃ t, exec .cfgexp s = .next t ∧
      t.cfgIndex.toNat =
        8 * (s.cfgDir.getLsbD 2).toNat + 4 * (s.cfgDir.getLsbD 1).toNat + 2 * (s.cfgDir.getLsbD 0).toNat + r.toNat ∧
      t = { s with
        expOp := readOp s.params.cfgExpBank
        env := { s.env with
          now := if s.cfgWaited then s.env.now else s.env.now + BitVec.ofNat 32 s.params.cfgDebounceTicks }
        cfgReads := s.cfgReads + 1
        cfgWaited := false
        cfgIndex := t.cfgIndex
        pc := ⟨4, 0, 0⟩ }

/-- R84, a reading that does not agree while the cap is not reached: it is kept for the next comparison; the first reading is made without a delay (log 5). -/
def Obligations.CfgexpRepeatsOnDisagreement : Prop :=
  ∀ (s : State) (r : Bool), s.env.expDone = true →
    r = !s.env.expData.getLsbD s.params.cfgExpBit.toNat →
    (s.cfgPrevV = true → r ≠ s.cfgPrev) →
    (s.params.cfgMaxReads = 0 ∨ s.cfgReads + 1 < s.params.cfgMaxReads) →
    exec .cfgexp s =
      .next { s with
        expOp := readOp s.params.cfgExpBank
        env := { s.env with
          now := if s.cfgPrevV = true ∧ s.cfgWaited = false then s.env.now + BitVec.ofNat 32 s.params.cfgDebounceTicks
            else s.env.now }
        cfgReads := s.cfgReads + 1
        cfgWaited := false
        cfgPrev := r
        cfgPrevV := true
        pc := ⟨3, 0, 0⟩ }

/-- R84 and R192: with a cap, the reading that reaches it without agreeing takes the fatal entry NONCONVERGE, with the count kept (the delay: log 5). -/
def Obligations.CfgexpHaltsAtTheCap : Prop :=
  ∀ (s : State) (r : Bool), s.env.expDone = true →
    r = !s.env.expData.getLsbD s.params.cfgExpBit.toNat →
    (s.cfgPrevV = true → r ≠ s.cfgPrev) →
    0 < s.params.cfgMaxReads → s.params.cfgMaxReads ≤ s.cfgReads + 1 →
    exec .cfgexp s =
      .next { s with
        expOp := readOp s.params.cfgExpBank
        env := { s.env with
          now := if s.cfgPrevV = true ∧ s.cfgWaited = false then s.env.now + BitVec.ofNat 32 s.params.cfgDebounceTicks
            else s.env.now }
        cfgReads := s.cfgReads + 1
        cfgWaited := false
        fault := 2
        evt := 0xE2
        evtValid := true
        events := s.events ++ [0xE2]
        pc := ⟨15, 0, 0⟩ }

/-- The model's waiting (log 6, from R80 and R228): a transport that has not answered leaves the block where it is, with its request shown. By R84 and R7 the Wait between two readings of CFGEXP has then passed already, and it passes once (log 5). -/
def Obligations.SilentTransportHoldsTheStep : Prop :=
  ∀ s : State, s.env.expDone = false →
    exec .expinit s = .next { s with expOp := .init } ∧
    exec .cfgexp s =
      .next { s with
        expOp := readOp s.params.cfgExpBank
        env := { s.env with
          now := if s.cfgPrevV = true ∧ s.cfgWaited = false then s.env.now + BitVec.ofNat 32 s.params.cfgDebounceTicks
            else s.env.now }
        cfgWaited := true } ∧
    exec .sampleA s = .next { s with expOp := .readA } ∧
    exec .sampleB s = .next { s with expOp := .readB }

/-- R91 and R93: LOAD completes for each of the 16 values of CFG_INDEX; every slot register then holds MAPTAB's word of that configuration, and nothing else but `pc` has changed. -/
def Obligations.LoadCopiesTheConfiguration : Prop :=
  ∀ s : State, ∃ t, exec .load s = .next t ∧
    KeysMatchConfig t ∧ t.key.length = 3 * s.params.nButtons ∧ t = { s with key := t.key, pc := ⟨5, 0, 0⟩ }

/-- R92: BEGIN emits the event 0x00, latches `now` in TURBO_TS and enters RUN. -/
def Obligations.BeginLatchesTheTurboTime : Prop :=
  ∀ s : State, exec .begin s =
    .next { s with evt := 0x00, evtValid := true, events := s.events ++ [0x00], turboTs := s.env.now, pc := ⟨8, 0, 0⟩ }

/-- R217: with a transport that answers and two equal first readings, the boot sequence PINMODE, EXPINIT, CFGDIR, CFGEXP twice, LOAD, BEGIN takes seven steps from reset to RELALL, with the index of R85 and its configuration in the slot registers. The environment's moves are those of log 3. -/
def Obligations.BootReachesRun : Prop :=
  ∀ (p : Params) (e : Env) (m1 m2 m3 m4 m5 m6 m7 : EnvMove) (rest : List EnvMove),
    e.rst = false → e.script = m1 :: m2 :: m3 :: m4 :: m5 :: m6 :: m7 :: rest →
    (∀ m ∈ [m1, m2, m3, m4, m5, m6], m.rst = false) → (∀ m ∈ [m1, m3, m4], m.expDone = true) →
    p.cfgMaxReads ≠ 1 →
    m3.expData.getLsbD p.cfgExpBit.toNat = m4.expData.getLsbD p.cfgExpBit.toNat →
    ∃ t, Host.Core.run Sys2Proof.core 7 { State.resetWith p with env := e } = .next t ∧
      t.pc = ⟨8, 0, 0⟩ ∧ t.mode = some .run ∧ t.events = [0x00] ∧ t.fault = 0 ∧ t.pinPullup = 0b111 ∧ t.cfgReads = 2 ∧
      t.cfgIndex.toNat =
        8 * (!m2.cfgPin.getLsbD 0).toNat + 4 * (!m2.cfgPin.getLsbD 1).toNat + 2 * (!m2.cfgPin.getLsbD 2).toNat +
          (!m4.expData.getLsbD p.cfgExpBit.toNat).toNat ∧
      KeysMatchConfig t

/-! ## The debouncer -/

/-- R102 with R104: SAMPLE.A takes one byte and one time through the transition of bank A, and goes to SAMPLE.B. -/
def Obligations.SampleADebouncesBankA : Prop :=
  ∀ (s : State) (ts : Time), s.env.expDone = true →
    ts = (if s.env.expData ≠ s.bankA.prev then s.env.now else s.bankA.ts) →
    exec .sampleA s =
      .next { s with
        expOp := .readA
        bankA :=
          { acc := if s.params.debounceTicks < (s.env.now - ts).toNat ∧ s.env.expData ≠ s.bankA.acc then s.env.expData
              else s.bankA.acc
            prev := s.env.expData
            ts := ts }
        pc := ⟨11, 0, 0⟩ }

/-- R103 with R104: SAMPLE.B does the same on bank B, and goes to (RESOLVE, 0, 1). -/
def Obligations.SampleBDebouncesBankB : Prop :=
  ∀ (s : State) (ts : Time), s.env.expDone = true →
    ts = (if s.env.expData ≠ s.bankB.prev then s.env.now else s.bankB.ts) →
    exec .sampleB s =
      .next { s with
        expOp := .readB
        bankB :=
          { acc := if s.params.debounceTicks < (s.env.now - ts).toNat ∧ s.env.expData ≠ s.bankB.acc then s.env.expData
              else s.bankB.acc
            prev := s.env.expData
            ts := ts }
        pc := ⟨12, 0, 1⟩ }

/-- R110: a reading first seen at `t0` and the same in every later sample is accepted by the first sample more than the window after `t0`, and not before it. -/
def Obligations.StableReadingIsAccepted : Prop :=
  ∀ (window : Nat) (k : BankState) (raw : Byte) (t0 t : Time) (between : List Time),
    raw ≠ k.prev → raw ≠ k.acc → (∀ u ∈ between, (u - t0).toNat ≤ window) →
    let seen := between.foldl (fun j u => debounce window j raw u) (debounce window k raw t0)
    seen.acc = k.acc ∧
    ((t - t0).toNat ≤ window → (debounce window seen raw t).acc = k.acc) ∧
    (window < (t - t0).toNat → (debounce window seen raw t).acc = raw)

/-- R106: once the accepted byte equals the raw byte, no sample of that byte changes it or the time stamp of the last change again, whatever the times. -/
def Obligations.AcceptedReadingIsPromotedOnce : Prop :=
  ∀ (window : Nat) (k : BankState) (raw : Byte) (times : List Time), k.acc = raw → k.prev = raw →
    times.foldl (fun j u => debounce window j raw u) k = k

/-- R101: a button is pressed exactly when the accepted level of its PINMAP pin is 0. That an index from N_BUTTONS on has no answer is R44's refusal of the PINMAP read, as the model takes it (log 13, DEDUCED). -/
def Obligations.PressedMeansAcceptedLow : Prop :=
  ∀ (s : State) (b : BitVec 4), LegalParams s.params →
    (b.toNat < s.params.nButtons → ∃ e : BitVec 4, s.params.pinmap[b.toNat]? = some e ∧
      s.isPressed b = some (decide (((if e.getLsbD 3 then s.bankB.acc else s.bankA.acc).getLsbD (e.toNat % 8)) = false))) ∧
    (s.params.nButtons ≤ b.toNat → s.isPressed b = none)

/-- R225: with legal parameters the accepted level of the configuration bit's pin is read by no button. -/
def Obligations.ConfigurationBitIsNoButton : Prop :=
  ∀ (s : State) (b : BitVec 4) (v w : Byte), LegalParams s.params →
    (∀ i, i ≠ s.params.cfgExpBit.toNat → v.getLsbD i = w.getLsbD i) →
    (s.params.cfgExpBank = .A →
      ({ s with bankA := { s.bankA with acc := v } } : State).isPressed b =
      ({ s with bankA := { s.bankA with acc := w } } : State).isPressed b) ∧
    (s.params.cfgExpBank = .B →
      ({ s with bankB := { s.bankB with acc := v } } : State).isPressed b =
      ({ s with bankB := { s.bankB with acc := w } } : State).isPressed b)

/-! ## The cycle -/

/-- R166. -/
def Obligations.RelallClearsTheCycle : Prop :=
  ∀ s : State, exec .relall s =
    .next { s with
      evt := 0x20
      evtValid := true
      events := s.events ++ [0x20]
      layer := { s.layer with keys := [] }
      x := 0
      y := 0
      pc := ⟨9, 0, 0⟩ }

/-- R167: TURBO toggles the phase and takes the sampled time exactly when at least the period has passed; it toggles at most once. -/
def Obligations.TurboTogglesAtItsPeriod : Prop :=
  ∀ s : State,
    (s.params.turboPeriodTicks ≤ (s.env.now - s.turboTs).toNat →
      exec .turbo s = .next { s with turboPhase := !s.turboPhase, turboTs := s.env.now, pc := ⟨10, 0, 0⟩ }) ∧
    ((s.env.now - s.turboTs).toNat < s.params.turboPeriodTicks →
      exec .turbo s = .next { s with pc := ⟨10, 0, 0⟩ })

/-- R170: an unpressed button is skipped; a pressed one has its slot word executed, and the walk goes on to the next slot, the next button, or DPADOUT, unless the word was illegal. -/
def Obligations.ResolveWalksTheButtons : Prop :=
  ∀ (s : State) (b : BitVec 4) (slot : BitVec 2) (past : Pc), slot ≠ 0 → b.toNat < s.params.nButtons →
    past = (if b.toNat + 1 < s.params.nButtons then ⟨12, b + 1, 1⟩ else ⟨13, 0, 0⟩) →
    (s.isPressed b = some false → exec (.resolve b slot) s = .next { s with pc := past }) ∧
    (∀ w, s.isPressed b = some true → s.readKey slot b = some w →
      ∃ u, exec (decodeSlot s.params.nBtnKeys w) s = .next u ∧
        (legal s.params.nBtnKeys w = true → exec (.resolve b slot) s =
          .next { u with pc := if slot.toNat < 3 then ⟨12, b, slot + 1⟩ else past }) ∧
        (legal s.params.nBtnKeys w = false → exec (.resolve b slot) s = .next u ∧ u.pc = ⟨15, 0, 0⟩))

/-- R159 with R157, R158 and R160: DPADOUT leaves in x and y the signs of what they held and emits the one direction that has these increments. -/
def Obligations.DpadoutShowsTheSigns : Prop :=
  ∀ s : State, ∃ d : Dir,
    d.dx.toInt = s.x.toInt.sign ∧ d.dy.toInt = s.y.toInt.sign ∧
    exec .dpadout s =
      .next { s with
        x := d.dx
        y := d.dy
        evt := 0x60 + d.offset.setWidth 8
        evtValid := true
        events := s.events ++ [0x60 + d.offset.setWidth 8]
        layer := { s.layer with dpad := some d }
        pc := ⟨14, 0, 0⟩ }

/-- R157, R158: the clamp is the sign function, is idempotent, and the lookup is the inverse of the increments of R64. -/
def Obligations.ClampIsSignAndLookupInverts : Prop :=
  (∀ v : Acc, (clamp v).toInt = v.toInt.sign ∧ clamp (clamp v) = clamp v) ∧ ∀ d : Dir, dlut d.dx d.dy = some d

/-- R172 with R176: COMMIT makes the pair of keys and direction the host's report. -/
def Obligations.CommitDeliversTheReport : Prop :=
  ∀ s : State, exec .commit s =
    .next { s with
      evt := 0x80
      evtValid := true
      events := s.events ++ [0x80]
      layer := { s.layer with committed := some { keys := s.layer.keys, dpad := s.layer.dpad } }
      pc := ⟨8, 0, 0⟩ }

/-- R173: from (RELALL,0,0), with the transport answering and `rst` low, the steps of one cycle compose to the function `Cycle` of the state and the five oracle answers, in at most 3*N_BUTTONS + 6 steps; the ports and the layer's copy apart. -/
def Obligations.CycleIsItsFunction : Prop :=
  ∀ (s : State) (m1 m2 m3 : EnvMove) (rest : List EnvMove) (tT tA tB : Time),
    LegalParams s.params → s.key.length = 3 * s.params.nButtons → s.pc = ⟨8, 0, 0⟩ →
    s.env.rst = false → s.env.script = m1 :: m2 :: m3 :: rest → 3 * s.params.nButtons + 3 ≤ rest.length →
    (∀ m ∈ s.env.script, m.rst = false) → m2.expDone = true → m3.expDone = true →
    tT = s.env.now + m1.ticks → tA = tT + m2.ticks → tB = tA + m3.ticks →
    ∃ k t, k ≤ 3 * s.params.nButtons + 6 ∧ Host.Core.run Sys2Proof.core k s = .next t ∧
      t = { (s.cycle tT m2.expData tA m3.expData tB).1 with
        events := s.events ++ (s.cycle tT m2.expData tA m3.expData tB).2
        evt := t.evt
        evtValid := true
        expOp := t.expOp
        layer := t.layer
        env := t.env }

/-- R197. -/
def Obligations.HaltStays : Prop := ∀ s : State, exec .halt s = .next { s with pc := ⟨15, 0, 0⟩ }

/-! ## Event words -/

/-- R72 with R176: what each event word puts on the port and does to the layer's copy, for every argument the block emits; that the sequencer does not move is the model's choice (log 14). -/
def Obligations.EventWordsReachTheLayer : Prop :=
  ∀ (s : State) (arg : KeyConst),
    exec .evBegin s = .next { s with evt := 0x00, evtValid := true, events := s.events ++ [0x00] } ∧
    exec .evReleaseAll s =
      .next { s with evt := 0x20, evtValid := true, events := s.events ++ [0x20], layer := { s.layer with keys := [] } } ∧
    exec .evCommit s =
      .next { s with
        evt := 0x80, evtValid := true, events := s.events ++ [0x80]
        layer := { s.layer with committed := some { keys := s.layer.keys, dpad := s.layer.dpad } } } ∧
    (arg.toNat < s.params.nBtnKeys → ∃ t, exec (.evPress arg) s = .next t ∧
      (∀ j, j ∈ t.layer.keys ↔ j = arg ∨ j ∈ s.layer.keys) ∧
      t.layer = { s.layer with keys := t.layer.keys } ∧
      t = { s with
        evt := 0x40 + arg.setWidth 8, evtValid := true, events := s.events ++ [0x40 + arg.setWidth 8], layer := t.layer }) ∧
    (arg.toNat < 9 → ∃ d : Dir, d.offset.toNat = arg.toNat ∧ exec (.evSetDpad arg) s =
      .next { s with
        evt := 0x60 + arg.setWidth 8, evtValid := true, events := s.events ++ [0x60 + arg.setWidth 8]
        layer := { s.layer with dpad := some d } }) ∧
    (0 < arg.toNat → arg.toNat < 4 → exec (.evDiag arg) s =
      .next { s with evt := 0xE0 + arg.setWidth 8, evtValid := true, events := s.events ++ [0xE0 + arg.setWidth 8] })

/-- The model's stop (93 V9, log 14): PRESS, SET_DPAD and DIAG with an argument the block never emits are refused by name. -/
def Obligations.NeverEmittedEventsAreRefused : Prop :=
  ∀ (s : State) (arg : BitVec 5),
    (s.params.nBtnKeys ≤ arg.toNat → exec (.evPress arg) s = .refused .reservedEventArg) ∧
    (9 ≤ arg.toNat → exec (.evSetDpad arg) s = .refused .reservedEventArg) ∧
    (arg.toNat = 0 ∨ 4 ≤ arg.toNat → exec (.evDiag arg) s = .refused .reservedEventArg)

/-! ## The step -/

/-- While `rst` is low, a step is the instruction decoded at the sequencer position, executed with the strobes of the step before cleared (the model's choice, log 8), after which the environment moves (log 3). -/
def Obligations.StepRunsTheDecodedInstruction : Prop :=
  ∀ (s : State) (i : Instr), s.env.rst = false → decode s.params.nBtnKeys (.pos s.pc.word) = .ok i →
    step s =
      match exec i { s with evtValid := false, expOp := .none } with
      | .next t => .next { t with env := t.env.advance }
      | .fault f => .fault f
      | .refused r => .refused r

/-- At a RESOLVE position of a pressed button a step runs the slot word's decoded instruction, then moves the sequencer (unless the word was illegal) and the environment; the cleared strobes are log 8's, the environment's move log 3's. -/
def Obligations.StepRunsTheSlotWord : Prop :=
  ∀ (s : State) (w : SlotWord), s.env.rst = false → s.pc.phase = 12 → s.pc.slot ≠ 0 → s.pc.b.toNat < s.params.nButtons →
    s.isPressed s.pc.b = some true → s.readKey s.pc.slot s.pc.b = some w →
    ∃ u, exec (decodeSlot s.params.nBtnKeys w) { s with evtValid := false, expOp := .none } = .next u ∧
      step s = .next { u with
        pc := if legal s.params.nBtnKeys w then nextSlot s.params.nButtons s.pc.b s.pc.slot else ⟨15, 0, 0⟩
        env := u.env.advance }

/-- The treatment of 93 V3 (log 12): a `pc` value that no transition writes is refused, RESOLVE at slot 0 or past the last button among them. -/
def Obligations.StrayPositionsAreRefused : Prop :=
  (∀ s : State, s.env.rst = false → s.pc.legal s.params.nButtons = false → step s = .refused .badPosition) ∧
  ∀ (s : State) (b : BitVec 4) (slot : BitVec 2), slot = 0 ∨ s.params.nButtons ≤ b.toNat →
    exec (.resolve b slot) s = .refused .badPosition

/-- R17, row by row: how each step advances `pc`, the transport answering. -/
def Obligations.StepFollowsTheTransitionTable : Prop :=
  ∀ s t : State, s.env.rst = false → s.env.expDone = true → step s = .next t →
    (s.pc = ⟨0, 0, 0⟩ → t.pc = ⟨1, 0, 0⟩) ∧
    (s.pc = ⟨1, 0, 0⟩ → t.pc = ⟨2, 0, 0⟩) ∧
    (s.pc = ⟨2, 0, 0⟩ → t.pc = ⟨3, 0, 0⟩) ∧
    (s.pc = ⟨3, 0, 0⟩ → s.cfgAgrees = true → t.pc = ⟨4, 0, 0⟩) ∧
    (s.pc = ⟨3, 0, 0⟩ → s.cfgAgrees = false → s.params.cfgMaxReads = 0 ∨ s.cfgReads + 1 < s.params.cfgMaxReads →
      t.pc = ⟨3, 0, 0⟩) ∧
    (s.pc = ⟨3, 0, 0⟩ → s.cfgAgrees = false → 0 < s.params.cfgMaxReads → s.params.cfgMaxReads ≤ s.cfgReads + 1 →
      t.pc = ⟨15, 0, 0⟩) ∧
    (s.pc = ⟨4, 0, 0⟩ → t.pc = ⟨5, 0, 0⟩) ∧
    (s.pc = ⟨5, 0, 0⟩ → t.pc = ⟨8, 0, 0⟩) ∧
    (s.pc = ⟨8, 0, 0⟩ → t.pc = ⟨9, 0, 0⟩) ∧
    (s.pc = ⟨9, 0, 0⟩ → t.pc = ⟨10, 0, 0⟩) ∧
    (s.pc = ⟨10, 0, 0⟩ → t.pc = ⟨11, 0, 0⟩) ∧
    (s.pc = ⟨11, 0, 0⟩ → t.pc = ⟨12, 0, 1⟩) ∧
    (∀ b slot, s.pc = ⟨12, b, slot⟩ → s.isPressed b = some false →
      t.pc = if b.toNat + 1 < s.params.nButtons then ⟨12, b + 1, 1⟩ else ⟨13, 0, 0⟩) ∧
    (∀ b slot w, s.pc = ⟨12, b, slot⟩ → s.isPressed b = some true → s.readKey slot b = some w →
      t.pc = if legal s.params.nBtnKeys w = false then ⟨15, 0, 0⟩ else if slot.toNat < 3 then ⟨12, b, slot + 1⟩
        else if b.toNat + 1 < s.params.nButtons then ⟨12, b + 1, 1⟩ else ⟨13, 0, 0⟩) ∧
    (s.pc = ⟨13, 0, 0⟩ → t.pc = ⟨14, 0, 0⟩) ∧
    (s.pc = ⟨14, 0, 0⟩ → t.pc = ⟨8, 0, 0⟩) ∧
    (s.pc = ⟨15, 0, 0⟩ → t.pc = ⟨15, 0, 0⟩)

/-- Which phases write which register: R26's W column, with R12 and R159 for x and y (DPADOUT leaves them clamped), R190 for the phases of FAULT and R81 for pin_pullup; no step writes a parameter (R34), and the slot registers are written by LOAD only (R94). The model's own field of log 5 is among those of CFGEXP. -/
def Obligations.OnlyTheNamedStepsWrite : Prop :=
  ∀ s t : State, s.env.rst = false → step s = .next t →
    t.params = s.params ∧
    (t.fault ≠ s.fault → s.pc.phase = 3 ∨ s.pc.phase = 4 ∨ s.pc.phase = 12) ∧
    (t.key ≠ s.key → s.pc.phase = 4) ∧
    (t.x ≠ s.x ∨ t.y ≠ s.y → s.pc.phase = 8 ∨ s.pc.phase = 12 ∨ s.pc.phase = 13) ∧
    (t.turboPhase ≠ s.turboPhase → s.pc.phase = 9) ∧
    (t.turboTs ≠ s.turboTs → s.pc.phase = 5 ∨ s.pc.phase = 9) ∧
    (t.bankA ≠ s.bankA → s.pc.phase = 10) ∧
    (t.bankB ≠ s.bankB → s.pc.phase = 11) ∧
    (t.cfgIndex ≠ s.cfgIndex → s.pc.phase = 3) ∧
    (t.cfgDir ≠ s.cfgDir → s.pc.phase = 2) ∧
    (t.cfgPrev ≠ s.cfgPrev ∨ t.cfgPrevV ≠ s.cfgPrevV ∨ t.cfgReads ≠ s.cfgReads ∨ t.cfgWaited ≠ s.cfgWaited →
      s.pc.phase = 3) ∧
    (t.pinPullup ≠ s.pinPullup → s.pc.phase = 0)

/-- R197, R198: in HALT, while `rst` stays low, any number of steps leaves everything but the strobes (log 8) and the input ports (log 3) as it was. -/
def Obligations.OnlyResetLeavesHalt : Prop :=
  ∀ (k : Nat) (s : State), s.pc = ⟨15, 0, 0⟩ → s.env.rst = false → (∀ m ∈ s.env.script, m.rst = false) →
    k ≤ s.env.script.length →
    ∃ e, Host.Core.run Sys2Proof.core (k + 1) s = .next { s with evtValid := false, expOp := .none, env := e }

/-- R215, R201, R216: whatever the state, `rst` high makes the next state that of reset; the parameters and the layer's last committed report stay, and the environment goes on (the model's choices of log 7 and log 10). -/
def Obligations.ResetWinsOverEveryStep : Prop :=
  ∀ s : State, s.env.rst = true →
    step s = .next { State.resetWith s.params with
      layer := { keys := [], dpad := none, committed := s.layer.committed }
      env := s.env.advance }

/-- R33: the values reset leaves, for every choice of the parameters. -/
def Obligations.ResetLeavesTheStatedValues : Prop :=
  ∀ (p : Params) (s : State), s = State.resetWith p →
    s.pc = ⟨0, 0, 0⟩ ∧ s.mode = some .boot ∧ s.fault = 0 ∧ s.turboPhase = p.turboPhaseInit ∧
    s.bankA = ⟨0xFF, 0xFF, 0⟩ ∧ s.bankB = ⟨0xFF, 0xFF, 0⟩ ∧ s.cfgPrevV = false ∧ s.cfgReads = 0 ∧
    s.expOp = .none ∧ s.evtValid = false ∧ s.pinPullup = 0 ∧ s.layer.keys = [] ∧ s.layer.dpad = none

/-! ## Tables -/

/-- R40, R44: every address formed from indices in range is answered, two different index triples have different addresses, and an address outside the 48 x N_BUTTONS words is not answered (log 13). -/
def Obligations.MaptabAddressesAreInRange : Prop :=
  ∀ p : Params,
    (∀ c b s, c < 16 → b < p.nButtons → 1 ≤ s → s ≤ 3 → (memReadMaptab p (maddr p.nButtons c b s)).isSome = true) ∧
    (∀ c b s c' b' s', b < p.nButtons → 1 ≤ s → s ≤ 3 → b' < p.nButtons → 1 ≤ s' → s' ≤ 3 →
      maddr p.nButtons c b s = maddr p.nButtons c' b' s' → c = c' ∧ b = b' ∧ s = s') ∧
    (∀ addr, 48 * p.nButtons ≤ addr → memReadMaptab p addr = none)

/-- The table as memory: a byte written is read back, every other address reads as before (R48: a read always returns the same word; the form of the table is log 20's). -/
def Obligations.MaptabReadsWhatWasWritten : Prop :=
  ∀ (n : Nat) (m : Memory) (addr a : Nat) (v : Byte), Memory.wf n m = true →
    Memory.read n (Memory.write n m addr v) a = if a = addr then v else Memory.read n m a

/-! ## Invariants -/

/-- At reset, with legal parameters, all the invariants below hold; the reference parameters are legal. -/
def Obligations.ResetMeetsTheInvariants : Prop :=
  LegalParams Config.reference ∧ State.reset = State.resetWith Config.reference ∧
  ∀ p : Params, LegalParams p →
    Sound (State.resetWith p) ∧ MappingLoaded (State.resetWith p) ∧ AccumulatorsSum (State.resetWith p) ∧
    StreamFollowsGrammar (State.resetWith p) ∧ (State.resetWith p).layer.sorted ∧
    (WfMaptab p → p.cfgMaxReads = 0 → CannotHalt (State.resetWith p))

/-- R16, R17, R35 (d): every step keeps the position one that a transition writes, and FAULT not 0 exactly in HALT; the model's own mark that a Wait has passed is set in CFGEXP only (log 5). -/
def Obligations.StepKeepsPositionAndFault : Prop :=
  ∀ s t : State, Sound s → step s = .next t → Sound t

/-- A sound state always has a next state, provided the slot registers that exist can be read: the block never stops short of HALT (R171, R232). -/
def Obligations.SoundStatesStepOn : Prop :=
  ∀ s : State, Sound s → s.key.length = 3 * s.params.nButtons → ∃ t, step s = .next t

/-- R35 (a), R93, R94: every step keeps the slot registers equal to MAPTAB's words of CFG_INDEX in all phases after LOAD. -/
def Obligations.StepKeepsTheActiveMapping : Prop :=
  ∀ s t : State, MappingLoaded s → step s = .next t → MappingLoaded t

/-- R156, R157, R161, R35 (b, c): every step keeps x and y equal to the integer sums of the increments met so far in the walk, and at COMMIT to their signs, which are the direction on the D-pad. -/
def Obligations.StepKeepsTheAccumulatedSum : Prop :=
  ∀ s t : State, Sound s → AccumulatorsSum s → step s = .next t → AccumulatorsSum t

/-- R175: every step keeps the event stream in the grammar. -/
def Obligations.StepKeepsTheEventGrammar : Prop :=
  ∀ s t : State, StreamFollowsGrammar s → step s = .next t → StreamFollowsGrammar t

/-- Every step keeps REPORT_KEYS listed in rising order without repeats. That form is the model's representation of the set of R29 and R176 (log 10, DESIGN CHOICE): equal sets are equal lists. -/
def Obligations.StepKeepsTheReportASet : Prop :=
  ∀ s t : State, s.layer.sorted → step s = .next t → t.layer.sorted

/-- R218: with WF_MAPTAB and no cap, every step keeps the block out of HALT. -/
def Obligations.StepKeepsOutOfHalt : Prop :=
  ∀ s t : State, CannotHalt s → step s = .next t → CannotHalt t

/-- R33's "No such read can happen": two states that agree but in registers not written since reset take steps that agree the same way, so the values log 2 names for them are never read. -/
def Obligations.NoStepReadsAnUnwrittenRegister : Prop :=
  ∀ s t : State, s.forget = t.forget → SameOutcome (step s) (step t)
end

