-- ==== Sys2Proof/Laws/State.lean ====
section
/-! SUPPORT. One lemma per field of State for each named update of Machine/Ops.lean, so that no proof unfolds an update. -/

namespace Sys2Proof.Machine

/-! ## `State.setPc` -/

@[simp] theorem State.setPc_params (s : State) (p : Pc) : (s.setPc p).params = s.params := rfl
@[simp] theorem State.setPc_pc (s : State) (p : Pc) : (s.setPc p).pc = p := rfl
@[simp] theorem State.setPc_fault (s : State) (p : Pc) : (s.setPc p).fault = s.fault := rfl
@[simp] theorem State.setPc_key (s : State) (p : Pc) : (s.setPc p).key = s.key := rfl
@[simp] theorem State.setPc_x (s : State) (p : Pc) : (s.setPc p).x = s.x := rfl
@[simp] theorem State.setPc_y (s : State) (p : Pc) : (s.setPc p).y = s.y := rfl
@[simp] theorem State.setPc_turboPhase (s : State) (p : Pc) : (s.setPc p).turboPhase = s.turboPhase := rfl
@[simp] theorem State.setPc_turboTs (s : State) (p : Pc) : (s.setPc p).turboTs = s.turboTs := rfl
@[simp] theorem State.setPc_bankA (s : State) (p : Pc) : (s.setPc p).bankA = s.bankA := rfl
@[simp] theorem State.setPc_bankB (s : State) (p : Pc) : (s.setPc p).bankB = s.bankB := rfl
@[simp] theorem State.setPc_cfgIndex (s : State) (p : Pc) : (s.setPc p).cfgIndex = s.cfgIndex := rfl
@[simp] theorem State.setPc_cfgDir (s : State) (p : Pc) : (s.setPc p).cfgDir = s.cfgDir := rfl
@[simp] theorem State.setPc_cfgPrev (s : State) (p : Pc) : (s.setPc p).cfgPrev = s.cfgPrev := rfl
@[simp] theorem State.setPc_cfgPrevV (s : State) (p : Pc) : (s.setPc p).cfgPrevV = s.cfgPrevV := rfl
@[simp] theorem State.setPc_cfgReads (s : State) (p : Pc) : (s.setPc p).cfgReads = s.cfgReads := rfl
@[simp] theorem State.setPc_cfgWaited (s : State) (p : Pc) : (s.setPc p).cfgWaited = s.cfgWaited := rfl
@[simp] theorem State.setPc_pinPullup (s : State) (p : Pc) : (s.setPc p).pinPullup = s.pinPullup := rfl
@[simp] theorem State.setPc_expOp (s : State) (p : Pc) : (s.setPc p).expOp = s.expOp := rfl
@[simp] theorem State.setPc_evt (s : State) (p : Pc) : (s.setPc p).evt = s.evt := rfl
@[simp] theorem State.setPc_evtValid (s : State) (p : Pc) : (s.setPc p).evtValid = s.evtValid := rfl
@[simp] theorem State.setPc_events (s : State) (p : Pc) : (s.setPc p).events = s.events := rfl
@[simp] theorem State.setPc_layer (s : State) (p : Pc) : (s.setPc p).layer = s.layer := rfl
@[simp] theorem State.setPc_env (s : State) (p : Pc) : (s.setPc p).env = s.env := rfl

/-! ## `State.setXY` -/

@[simp] theorem State.setXY_params (s : State) (x y : Acc) : (s.setXY x y).params = s.params := rfl
@[simp] theorem State.setXY_pc (s : State) (x y : Acc) : (s.setXY x y).pc = s.pc := rfl
@[simp] theorem State.setXY_fault (s : State) (x y : Acc) : (s.setXY x y).fault = s.fault := rfl
@[simp] theorem State.setXY_key (s : State) (x y : Acc) : (s.setXY x y).key = s.key := rfl
@[simp] theorem State.setXY_x (s : State) (x y : Acc) : (s.setXY x y).x = x := rfl
@[simp] theorem State.setXY_y (s : State) (x y : Acc) : (s.setXY x y).y = y := rfl
@[simp] theorem State.setXY_turboPhase (s : State) (x y : Acc) : (s.setXY x y).turboPhase = s.turboPhase := rfl
@[simp] theorem State.setXY_turboTs (s : State) (x y : Acc) : (s.setXY x y).turboTs = s.turboTs := rfl
@[simp] theorem State.setXY_bankA (s : State) (x y : Acc) : (s.setXY x y).bankA = s.bankA := rfl
@[simp] theorem State.setXY_bankB (s : State) (x y : Acc) : (s.setXY x y).bankB = s.bankB := rfl
@[simp] theorem State.setXY_cfgIndex (s : State) (x y : Acc) : (s.setXY x y).cfgIndex = s.cfgIndex := rfl
@[simp] theorem State.setXY_cfgDir (s : State) (x y : Acc) : (s.setXY x y).cfgDir = s.cfgDir := rfl
@[simp] theorem State.setXY_cfgPrev (s : State) (x y : Acc) : (s.setXY x y).cfgPrev = s.cfgPrev := rfl
@[simp] theorem State.setXY_cfgPrevV (s : State) (x y : Acc) : (s.setXY x y).cfgPrevV = s.cfgPrevV := rfl
@[simp] theorem State.setXY_cfgReads (s : State) (x y : Acc) : (s.setXY x y).cfgReads = s.cfgReads := rfl
@[simp] theorem State.setXY_cfgWaited (s : State) (x y : Acc) : (s.setXY x y).cfgWaited = s.cfgWaited := rfl
@[simp] theorem State.setXY_pinPullup (s : State) (x y : Acc) : (s.setXY x y).pinPullup = s.pinPullup := rfl
@[simp] theorem State.setXY_expOp (s : State) (x y : Acc) : (s.setXY x y).expOp = s.expOp := rfl
@[simp] theorem State.setXY_evt (s : State) (x y : Acc) : (s.setXY x y).evt = s.evt := rfl
@[simp] theorem State.setXY_evtValid (s : State) (x y : Acc) : (s.setXY x y).evtValid = s.evtValid := rfl
@[simp] theorem State.setXY_events (s : State) (x y : Acc) : (s.setXY x y).events = s.events := rfl
@[simp] theorem State.setXY_layer (s : State) (x y : Acc) : (s.setXY x y).layer = s.layer := rfl
@[simp] theorem State.setXY_env (s : State) (x y : Acc) : (s.setXY x y).env = s.env := rfl

/-! ## `State.addDir` -/

@[simp] theorem State.addDir_params (s : State) (d : Dir) : (s.addDir d).params = s.params := rfl
@[simp] theorem State.addDir_pc (s : State) (d : Dir) : (s.addDir d).pc = s.pc := rfl
@[simp] theorem State.addDir_fault (s : State) (d : Dir) : (s.addDir d).fault = s.fault := rfl
@[simp] theorem State.addDir_key (s : State) (d : Dir) : (s.addDir d).key = s.key := rfl
@[simp] theorem State.addDir_x (s : State) (d : Dir) : (s.addDir d).x = s.x + d.dx := rfl
@[simp] theorem State.addDir_y (s : State) (d : Dir) : (s.addDir d).y = s.y + d.dy := rfl
@[simp] theorem State.addDir_turboPhase (s : State) (d : Dir) : (s.addDir d).turboPhase = s.turboPhase := rfl
@[simp] theorem State.addDir_turboTs (s : State) (d : Dir) : (s.addDir d).turboTs = s.turboTs := rfl
@[simp] theorem State.addDir_bankA (s : State) (d : Dir) : (s.addDir d).bankA = s.bankA := rfl
@[simp] theorem State.addDir_bankB (s : State) (d : Dir) : (s.addDir d).bankB = s.bankB := rfl
@[simp] theorem State.addDir_cfgIndex (s : State) (d : Dir) : (s.addDir d).cfgIndex = s.cfgIndex := rfl
@[simp] theorem State.addDir_cfgDir (s : State) (d : Dir) : (s.addDir d).cfgDir = s.cfgDir := rfl
@[simp] theorem State.addDir_cfgPrev (s : State) (d : Dir) : (s.addDir d).cfgPrev = s.cfgPrev := rfl
@[simp] theorem State.addDir_cfgPrevV (s : State) (d : Dir) : (s.addDir d).cfgPrevV = s.cfgPrevV := rfl
@[simp] theorem State.addDir_cfgReads (s : State) (d : Dir) : (s.addDir d).cfgReads = s.cfgReads := rfl
@[simp] theorem State.addDir_cfgWaited (s : State) (d : Dir) : (s.addDir d).cfgWaited = s.cfgWaited := rfl
@[simp] theorem State.addDir_pinPullup (s : State) (d : Dir) : (s.addDir d).pinPullup = s.pinPullup := rfl
@[simp] theorem State.addDir_expOp (s : State) (d : Dir) : (s.addDir d).expOp = s.expOp := rfl
@[simp] theorem State.addDir_evt (s : State) (d : Dir) : (s.addDir d).evt = s.evt := rfl
@[simp] theorem State.addDir_evtValid (s : State) (d : Dir) : (s.addDir d).evtValid = s.evtValid := rfl
@[simp] theorem State.addDir_events (s : State) (d : Dir) : (s.addDir d).events = s.events := rfl
@[simp] theorem State.addDir_layer (s : State) (d : Dir) : (s.addDir d).layer = s.layer := rfl
@[simp] theorem State.addDir_env (s : State) (d : Dir) : (s.addDir d).env = s.env := rfl

/-! ## `State.request` -/

@[simp] theorem State.request_params (s : State) (op : ExpOp) : (s.request op).params = s.params := rfl
@[simp] theorem State.request_pc (s : State) (op : ExpOp) : (s.request op).pc = s.pc := rfl
@[simp] theorem State.request_fault (s : State) (op : ExpOp) : (s.request op).fault = s.fault := rfl
@[simp] theorem State.request_key (s : State) (op : ExpOp) : (s.request op).key = s.key := rfl
@[simp] theorem State.request_x (s : State) (op : ExpOp) : (s.request op).x = s.x := rfl
@[simp] theorem State.request_y (s : State) (op : ExpOp) : (s.request op).y = s.y := rfl
@[simp] theorem State.request_turboPhase (s : State) (op : ExpOp) : (s.request op).turboPhase = s.turboPhase := rfl
@[simp] theorem State.request_turboTs (s : State) (op : ExpOp) : (s.request op).turboTs = s.turboTs := rfl
@[simp] theorem State.request_bankA (s : State) (op : ExpOp) : (s.request op).bankA = s.bankA := rfl
@[simp] theorem State.request_bankB (s : State) (op : ExpOp) : (s.request op).bankB = s.bankB := rfl
@[simp] theorem State.request_cfgIndex (s : State) (op : ExpOp) : (s.request op).cfgIndex = s.cfgIndex := rfl
@[simp] theorem State.request_cfgDir (s : State) (op : ExpOp) : (s.request op).cfgDir = s.cfgDir := rfl
@[simp] theorem State.request_cfgPrev (s : State) (op : ExpOp) : (s.request op).cfgPrev = s.cfgPrev := rfl
@[simp] theorem State.request_cfgPrevV (s : State) (op : ExpOp) : (s.request op).cfgPrevV = s.cfgPrevV := rfl
@[simp] theorem State.request_cfgReads (s : State) (op : ExpOp) : (s.request op).cfgReads = s.cfgReads := rfl
@[simp] theorem State.request_cfgWaited (s : State) (op : ExpOp) : (s.request op).cfgWaited = s.cfgWaited := rfl
@[simp] theorem State.request_pinPullup (s : State) (op : ExpOp) : (s.request op).pinPullup = s.pinPullup := rfl
@[simp] theorem State.request_expOp (s : State) (op : ExpOp) : (s.request op).expOp = op := rfl
@[simp] theorem State.request_evt (s : State) (op : ExpOp) : (s.request op).evt = s.evt := rfl
@[simp] theorem State.request_evtValid (s : State) (op : ExpOp) : (s.request op).evtValid = s.evtValid := rfl
@[simp] theorem State.request_events (s : State) (op : ExpOp) : (s.request op).events = s.events := rfl
@[simp] theorem State.request_layer (s : State) (op : ExpOp) : (s.request op).layer = s.layer := rfl
@[simp] theorem State.request_env (s : State) (op : ExpOp) : (s.request op).env = s.env := rfl

/-! ## `State.wait` -/

@[simp] theorem State.wait_params (s : State) (n : Nat) : (s.wait n).params = s.params := rfl
@[simp] theorem State.wait_pc (s : State) (n : Nat) : (s.wait n).pc = s.pc := rfl
@[simp] theorem State.wait_fault (s : State) (n : Nat) : (s.wait n).fault = s.fault := rfl
@[simp] theorem State.wait_key (s : State) (n : Nat) : (s.wait n).key = s.key := rfl
@[simp] theorem State.wait_x (s : State) (n : Nat) : (s.wait n).x = s.x := rfl
@[simp] theorem State.wait_y (s : State) (n : Nat) : (s.wait n).y = s.y := rfl
@[simp] theorem State.wait_turboPhase (s : State) (n : Nat) : (s.wait n).turboPhase = s.turboPhase := rfl
@[simp] theorem State.wait_turboTs (s : State) (n : Nat) : (s.wait n).turboTs = s.turboTs := rfl
@[simp] theorem State.wait_bankA (s : State) (n : Nat) : (s.wait n).bankA = s.bankA := rfl
@[simp] theorem State.wait_bankB (s : State) (n : Nat) : (s.wait n).bankB = s.bankB := rfl
@[simp] theorem State.wait_cfgIndex (s : State) (n : Nat) : (s.wait n).cfgIndex = s.cfgIndex := rfl
@[simp] theorem State.wait_cfgDir (s : State) (n : Nat) : (s.wait n).cfgDir = s.cfgDir := rfl
@[simp] theorem State.wait_cfgPrev (s : State) (n : Nat) : (s.wait n).cfgPrev = s.cfgPrev := rfl
@[simp] theorem State.wait_cfgPrevV (s : State) (n : Nat) : (s.wait n).cfgPrevV = s.cfgPrevV := rfl
@[simp] theorem State.wait_cfgReads (s : State) (n : Nat) : (s.wait n).cfgReads = s.cfgReads := rfl
@[simp] theorem State.wait_cfgWaited (s : State) (n : Nat) : (s.wait n).cfgWaited = s.cfgWaited := rfl
@[simp] theorem State.wait_pinPullup (s : State) (n : Nat) : (s.wait n).pinPullup = s.pinPullup := rfl
@[simp] theorem State.wait_expOp (s : State) (n : Nat) : (s.wait n).expOp = s.expOp := rfl
@[simp] theorem State.wait_evt (s : State) (n : Nat) : (s.wait n).evt = s.evt := rfl
@[simp] theorem State.wait_evtValid (s : State) (n : Nat) : (s.wait n).evtValid = s.evtValid := rfl
@[simp] theorem State.wait_events (s : State) (n : Nat) : (s.wait n).events = s.events := rfl
@[simp] theorem State.wait_layer (s : State) (n : Nat) : (s.wait n).layer = s.layer := rfl
@[simp] theorem State.wait_env (s : State) (n : Nat) : (s.wait n).env = { s.env with now := s.env.now + BitVec.ofNat 32 n } := rfl

/-! ## `State.emit` -/

@[simp] theorem State.emit_params (s : State) (e : Event) : (s.emit e).params = s.params := rfl
@[simp] theorem State.emit_pc (s : State) (e : Event) : (s.emit e).pc = s.pc := rfl
@[simp] theorem State.emit_fault (s : State) (e : Event) : (s.emit e).fault = s.fault := rfl
@[simp] theorem State.emit_key (s : State) (e : Event) : (s.emit e).key = s.key := rfl
@[simp] theorem State.emit_x (s : State) (e : Event) : (s.emit e).x = s.x := rfl
@[simp] theorem State.emit_y (s : State) (e : Event) : (s.emit e).y = s.y := rfl
@[simp] theorem State.emit_turboPhase (s : State) (e : Event) : (s.emit e).turboPhase = s.turboPhase := rfl
@[simp] theorem State.emit_turboTs (s : State) (e : Event) : (s.emit e).turboTs = s.turboTs := rfl
@[simp] theorem State.emit_bankA (s : State) (e : Event) : (s.emit e).bankA = s.bankA := rfl
@[simp] theorem State.emit_bankB (s : State) (e : Event) : (s.emit e).bankB = s.bankB := rfl
@[simp] theorem State.emit_cfgIndex (s : State) (e : Event) : (s.emit e).cfgIndex = s.cfgIndex := rfl
@[simp] theorem State.emit_cfgDir (s : State) (e : Event) : (s.emit e).cfgDir = s.cfgDir := rfl
@[simp] theorem State.emit_cfgPrev (s : State) (e : Event) : (s.emit e).cfgPrev = s.cfgPrev := rfl
@[simp] theorem State.emit_cfgPrevV (s : State) (e : Event) : (s.emit e).cfgPrevV = s.cfgPrevV := rfl
@[simp] theorem State.emit_cfgReads (s : State) (e : Event) : (s.emit e).cfgReads = s.cfgReads := rfl
@[simp] theorem State.emit_cfgWaited (s : State) (e : Event) : (s.emit e).cfgWaited = s.cfgWaited := rfl
@[simp] theorem State.emit_pinPullup (s : State) (e : Event) : (s.emit e).pinPullup = s.pinPullup := rfl
@[simp] theorem State.emit_expOp (s : State) (e : Event) : (s.emit e).expOp = s.expOp := rfl
@[simp] theorem State.emit_evt (s : State) (e : Event) : (s.emit e).evt = e.word := rfl
@[simp] theorem State.emit_evtValid (s : State) (e : Event) : (s.emit e).evtValid = true := rfl
@[simp] theorem State.emit_events (s : State) (e : Event) : (s.emit e).events = s.events ++ [e.word] := rfl
@[simp] theorem State.emit_layer (s : State) (e : Event) : (s.emit e).layer = s.layer.take e := rfl
@[simp] theorem State.emit_env (s : State) (e : Event) : (s.emit e).env = s.env := rfl

/-! ## `State.fatal` -/

@[simp] theorem State.fatal_params (s : State) (c : FatalCode) : (s.fatal c).params = s.params := rfl
@[simp] theorem State.fatal_pc (s : State) (c : FatalCode) : (s.fatal c).pc = Pc.start .halt := rfl
@[simp] theorem State.fatal_fault (s : State) (c : FatalCode) : (s.fatal c).fault = c.code := rfl
@[simp] theorem State.fatal_key (s : State) (c : FatalCode) : (s.fatal c).key = s.key := rfl
@[simp] theorem State.fatal_x (s : State) (c : FatalCode) : (s.fatal c).x = s.x := rfl
@[simp] theorem State.fatal_y (s : State) (c : FatalCode) : (s.fatal c).y = s.y := rfl
@[simp] theorem State.fatal_turboPhase (s : State) (c : FatalCode) : (s.fatal c).turboPhase = s.turboPhase := rfl
@[simp] theorem State.fatal_turboTs (s : State) (c : FatalCode) : (s.fatal c).turboTs = s.turboTs := rfl
@[simp] theorem State.fatal_bankA (s : State) (c : FatalCode) : (s.fatal c).bankA = s.bankA := rfl
@[simp] theorem State.fatal_bankB (s : State) (c : FatalCode) : (s.fatal c).bankB = s.bankB := rfl
@[simp] theorem State.fatal_cfgIndex (s : State) (c : FatalCode) : (s.fatal c).cfgIndex = s.cfgIndex := rfl
@[simp] theorem State.fatal_cfgDir (s : State) (c : FatalCode) : (s.fatal c).cfgDir = s.cfgDir := rfl
@[simp] theorem State.fatal_cfgPrev (s : State) (c : FatalCode) : (s.fatal c).cfgPrev = s.cfgPrev := rfl
@[simp] theorem State.fatal_cfgPrevV (s : State) (c : FatalCode) : (s.fatal c).cfgPrevV = s.cfgPrevV := rfl
@[simp] theorem State.fatal_cfgReads (s : State) (c : FatalCode) : (s.fatal c).cfgReads = s.cfgReads := rfl
@[simp] theorem State.fatal_cfgWaited (s : State) (c : FatalCode) : (s.fatal c).cfgWaited = s.cfgWaited := rfl
@[simp] theorem State.fatal_pinPullup (s : State) (c : FatalCode) : (s.fatal c).pinPullup = s.pinPullup := rfl
@[simp] theorem State.fatal_expOp (s : State) (c : FatalCode) : (s.fatal c).expOp = s.expOp := rfl
@[simp] theorem State.fatal_evt (s : State) (c : FatalCode) : (s.fatal c).evt = (Event.diag c).word := rfl
@[simp] theorem State.fatal_evtValid (s : State) (c : FatalCode) : (s.fatal c).evtValid = true := rfl
@[simp] theorem State.fatal_events (s : State) (c : FatalCode) : (s.fatal c).events = s.events ++ [(Event.diag c).word] := rfl
@[simp] theorem State.fatal_layer (s : State) (c : FatalCode) : (s.fatal c).layer = s.layer := rfl
@[simp] theorem State.fatal_env (s : State) (c : FatalCode) : (s.fatal c).env = s.env := rfl

/-! ## `State.quiet` -/

@[simp] theorem State.quiet_params (s : State) : (s.quiet).params = s.params := rfl
@[simp] theorem State.quiet_pc (s : State) : (s.quiet).pc = s.pc := rfl
@[simp] theorem State.quiet_fault (s : State) : (s.quiet).fault = s.fault := rfl
@[simp] theorem State.quiet_key (s : State) : (s.quiet).key = s.key := rfl
@[simp] theorem State.quiet_x (s : State) : (s.quiet).x = s.x := rfl
@[simp] theorem State.quiet_y (s : State) : (s.quiet).y = s.y := rfl
@[simp] theorem State.quiet_turboPhase (s : State) : (s.quiet).turboPhase = s.turboPhase := rfl
@[simp] theorem State.quiet_turboTs (s : State) : (s.quiet).turboTs = s.turboTs := rfl
@[simp] theorem State.quiet_bankA (s : State) : (s.quiet).bankA = s.bankA := rfl
@[simp] theorem State.quiet_bankB (s : State) : (s.quiet).bankB = s.bankB := rfl
@[simp] theorem State.quiet_cfgIndex (s : State) : (s.quiet).cfgIndex = s.cfgIndex := rfl
@[simp] theorem State.quiet_cfgDir (s : State) : (s.quiet).cfgDir = s.cfgDir := rfl
@[simp] theorem State.quiet_cfgPrev (s : State) : (s.quiet).cfgPrev = s.cfgPrev := rfl
@[simp] theorem State.quiet_cfgPrevV (s : State) : (s.quiet).cfgPrevV = s.cfgPrevV := rfl
@[simp] theorem State.quiet_cfgReads (s : State) : (s.quiet).cfgReads = s.cfgReads := rfl
@[simp] theorem State.quiet_cfgWaited (s : State) : (s.quiet).cfgWaited = s.cfgWaited := rfl
@[simp] theorem State.quiet_pinPullup (s : State) : (s.quiet).pinPullup = s.pinPullup := rfl
@[simp] theorem State.quiet_expOp (s : State) : (s.quiet).expOp = .none := rfl
@[simp] theorem State.quiet_evt (s : State) : (s.quiet).evt = s.evt := rfl
@[simp] theorem State.quiet_evtValid (s : State) : (s.quiet).evtValid = false := rfl
@[simp] theorem State.quiet_events (s : State) : (s.quiet).events = s.events := rfl
@[simp] theorem State.quiet_layer (s : State) : (s.quiet).layer = s.layer := rfl
@[simp] theorem State.quiet_env (s : State) : (s.quiet).env = s.env := rfl

/-! ## `State.advanceEnv` -/

@[simp] theorem State.advanceEnv_params (s : State) : (s.advanceEnv).params = s.params := rfl
@[simp] theorem State.advanceEnv_pc (s : State) : (s.advanceEnv).pc = s.pc := rfl
@[simp] theorem State.advanceEnv_fault (s : State) : (s.advanceEnv).fault = s.fault := rfl
@[simp] theorem State.advanceEnv_key (s : State) : (s.advanceEnv).key = s.key := rfl
@[simp] theorem State.advanceEnv_x (s : State) : (s.advanceEnv).x = s.x := rfl
@[simp] theorem State.advanceEnv_y (s : State) : (s.advanceEnv).y = s.y := rfl
@[simp] theorem State.advanceEnv_turboPhase (s : State) : (s.advanceEnv).turboPhase = s.turboPhase := rfl
@[simp] theorem State.advanceEnv_turboTs (s : State) : (s.advanceEnv).turboTs = s.turboTs := rfl
@[simp] theorem State.advanceEnv_bankA (s : State) : (s.advanceEnv).bankA = s.bankA := rfl
@[simp] theorem State.advanceEnv_bankB (s : State) : (s.advanceEnv).bankB = s.bankB := rfl
@[simp] theorem State.advanceEnv_cfgIndex (s : State) : (s.advanceEnv).cfgIndex = s.cfgIndex := rfl
@[simp] theorem State.advanceEnv_cfgDir (s : State) : (s.advanceEnv).cfgDir = s.cfgDir := rfl
@[simp] theorem State.advanceEnv_cfgPrev (s : State) : (s.advanceEnv).cfgPrev = s.cfgPrev := rfl
@[simp] theorem State.advanceEnv_cfgPrevV (s : State) : (s.advanceEnv).cfgPrevV = s.cfgPrevV := rfl
@[simp] theorem State.advanceEnv_cfgReads (s : State) : (s.advanceEnv).cfgReads = s.cfgReads := rfl
@[simp] theorem State.advanceEnv_cfgWaited (s : State) : (s.advanceEnv).cfgWaited = s.cfgWaited := rfl
@[simp] theorem State.advanceEnv_pinPullup (s : State) : (s.advanceEnv).pinPullup = s.pinPullup := rfl
@[simp] theorem State.advanceEnv_expOp (s : State) : (s.advanceEnv).expOp = s.expOp := rfl
@[simp] theorem State.advanceEnv_evt (s : State) : (s.advanceEnv).evt = s.evt := rfl
@[simp] theorem State.advanceEnv_evtValid (s : State) : (s.advanceEnv).evtValid = s.evtValid := rfl
@[simp] theorem State.advanceEnv_events (s : State) : (s.advanceEnv).events = s.events := rfl
@[simp] theorem State.advanceEnv_layer (s : State) : (s.advanceEnv).layer = s.layer := rfl
@[simp] theorem State.advanceEnv_env (s : State) : (s.advanceEnv).env = s.env.advance := rfl

/-! ## `State.applyReset` -/

@[simp] theorem State.applyReset_params (s : State) : s.applyReset.params = s.params := rfl
@[simp] theorem State.applyReset_pc (s : State) : s.applyReset.pc = Pc.start .pinmode := rfl
@[simp] theorem State.applyReset_fault (s : State) : s.applyReset.fault = 0 := rfl
@[simp] theorem State.applyReset_cfgWaited (s : State) : s.applyReset.cfgWaited = false := rfl
@[simp] theorem State.applyReset_events (s : State) : s.applyReset.events = [] := rfl
@[simp] theorem State.applyReset_layer (s : State) :
    s.applyReset.layer = { keys := [], dpad := none, committed := s.layer.committed } := rfl
@[simp] theorem State.applyReset_env (s : State) : s.applyReset.env = s.env := rfl

/-! ## Functions of the state that an update leaves alone -/

@[simp] theorem State.setPc_mode (s : State) (p : Pc) : (s.setPc p).mode = p.mode := rfl
@[simp] theorem Pc.start_phase (p : Phase) : (Pc.start p).phase = p.code := rfl
@[simp] theorem Pc.resolveAt_phase (b : BitVec 4) (slot : BitVec 2) : (Pc.resolveAt b slot).phase = 12 := rfl

/-- `isPressed` depends on the parameters and the two banks only. -/
theorem State.isPressed_congr {s t : State} (hp : t.params = s.params) (ha : t.bankA = s.bankA) (hb : t.bankB = s.bankB)
    (b : BitVec 4) : t.isPressed b = s.isPressed b := by
  have hbank : ∀ k, t.bank k = s.bank k := fun k => by cases k <;> simp [State.bank, ha, hb]
  simp [State.isPressed, hp, hbank]

/-- `readKey` depends on the parameters and the slot registers only. -/
theorem State.readKey_congr {s t : State} (hp : t.params = s.params) (hk : t.key = s.key) (slot : BitVec 2) (b : BitVec 4) :
    t.readKey slot b = s.readKey slot b := by
  simp [State.readKey, hp, hk]

end Sys2Proof.Machine
end

