-- ==== Sys2Proof/Machine/Assembler.lean ====
section
/-! DEFINITION. The assembler syntax of 30_encoding R74 and R75: slots, lines and tables as syntax trees with their text, the pseudo-instructions' expansions, and the MAPTAB a table stands for. A constant of the build (R40): no step runs any of it. -/

namespace Sys2Proof.Machine

/-- A slot as it is written: an instruction, the raw form for tests (R74), or a pseudo-instruction (R75). -/
inductive SlotText where
  | instr (i : Instr)
  | raw (w : SlotWord)
  | up
  | down
  | left
  | right
  | turbo (k : KeyConst)
deriving DecidableEq, Repr

/-- The slot word an instruction stands for; refused where it is no legal slot word (R74). -/
def legalSlotWord (n : Nat) (i : Instr) : Option SlotWord :=
  match encode n i with
  | .slot w => if i.wf n && legal n w then some w else none
  | _ => none

/-- The slot word a slot stands for, for `n` regular-button keys, with the expansions of R75. -/
def SlotText.word (n : Nat) : SlotText → Option SlotWord
  | .instr i => legalSlotWord n i
  | .raw w => some w
  | .up => legalSlotWord n .dpadU
  | .down => legalSlotWord n .dpadD
  | .left => legalSlotWord n .dpadL
  | .right => legalSlotWord n .dpadR
  | .turbo k => legalSlotWord n (.btnT k)

/-- One hexadecimal digit. -/
def hexDigit (n : Nat) : String := (["0", "1", "2", "3", "4", "5", "6", "7", "8", "9", "A", "B", "C", "D", "E", "F"][n % 16]?).getD ""

/-- The suffix of a direction (R64). -/
def Dir.suffix : Dir → String
  | .center => "C"
  | .up => "U"
  | .upRight => "UR"
  | .right => "R"
  | .downRight => "DR"
  | .down => "D"
  | .downLeft => "DL"
  | .left => "L"
  | .upLeft => "UL"

/-- The text of a legal slot instruction (R74); other instructions have none. -/
def slotMnemonic : Instr → Option String
  | .noop => some "NOOP"
  | .btn k => some ("BTN " ++ Nat.repr k.toNat)
  | .btnT k => some ("BTN.T " ++ Nat.repr k.toNat)
  | .dpadC => some ("DPAD." ++ Dir.center.suffix)
  | .dpadU => some ("DPAD." ++ Dir.up.suffix)
  | .dpadUR => some ("DPAD." ++ Dir.upRight.suffix)
  | .dpadR => some ("DPAD." ++ Dir.right.suffix)
  | .dpadDR => some ("DPAD." ++ Dir.downRight.suffix)
  | .dpadD => some ("DPAD." ++ Dir.down.suffix)
  | .dpadDL => some ("DPAD." ++ Dir.downLeft.suffix)
  | .dpadL => some ("DPAD." ++ Dir.left.suffix)
  | .dpadUL => some ("DPAD." ++ Dir.upLeft.suffix)
  | .lsC => some ("LS." ++ Dir.center.suffix)
  | .lsU => some ("LS." ++ Dir.up.suffix)
  | .lsUR => some ("LS." ++ Dir.upRight.suffix)
  | .lsR => some ("LS." ++ Dir.right.suffix)
  | .lsDR => some ("LS." ++ Dir.downRight.suffix)
  | .lsD => some ("LS." ++ Dir.down.suffix)
  | .lsDL => some ("LS." ++ Dir.downLeft.suffix)
  | .lsL => some ("LS." ++ Dir.left.suffix)
  | .lsUL => some ("LS." ++ Dir.upLeft.suffix)
  | .rsC => some ("RS." ++ Dir.center.suffix)
  | .rsU => some ("RS." ++ Dir.up.suffix)
  | .rsUR => some ("RS." ++ Dir.upRight.suffix)
  | .rsR => some ("RS." ++ Dir.right.suffix)
  | .rsDR => some ("RS." ++ Dir.downRight.suffix)
  | .rsD => some ("RS." ++ Dir.down.suffix)
  | .rsDL => some ("RS." ++ Dir.downLeft.suffix)
  | .rsL => some ("RS." ++ Dir.left.suffix)
  | .rsUL => some ("RS." ++ Dir.upLeft.suffix)
  | .illegalKey44 _ | .illegalKey48 _ | .illegalTurboK4 _ _ | .illegalTurboK5 _ => none
  | .pinmode | .expinit | .cfgdir | .cfgexp | .load | .begin | .relall | .turbo | .sampleA | .sampleB | .resolve _ _ => none
  | .dpadout | .commit | .halt | .evBegin | .evReleaseAll | .evPress _ | .evSetDpad _ | .evCommit | .evDiag _ => none

/-- The text of a slot (R74, R75). -/
def SlotText.text : SlotText → Option String
  | .instr i => slotMnemonic i
  | .raw w => some ("RAW 0x" ++ hexDigit (w.toNat / 16) ++ hexDigit w.toNat)
  | .up => some "UP"
  | .down => some "DOWN"
  | .left => some "LEFT"
  | .right => some "RIGHT"
  | .turbo k => some ("TURBO " ++ Nat.repr k.toNat)

/-- Every slot that can be written. -/
def SlotText.all (n : Nat) : List SlotText :=
  [.up, .down, .left, .right] ++ ((List.range n).map fun k => .turbo (BitVec.ofNat 5 k)) ++
  ((List.range 128).map fun w => .raw (BitVec.ofNat 7 w)) ++
  ((List.range 128).map fun w => .instr (decodeSlot n (BitVec.ofNat 7 w)))

/-- The slot a text stands for. -/
def SlotText.parse (n : Nat) (text : String) : Option SlotText := (SlotText.all n).find? fun t => t.text == some text

/-- A button's line: up to three slots, the omitted ones NOOP, or UNMAPPED (R75). -/
inductive LineText where
  | slots (ss : List SlotText)
  | unmapped
deriving DecidableEq, Repr

/-- The three slot words of a line; refused if it has more than three slots or an illegal one. -/
def LineText.words (n : Nat) : LineText → Option (List SlotWord)
  | .unmapped => some (List.replicate 3 (BitVec.ofNat 7 (kNoop n)))
  | .slots ss =>
    if ss.length ≤ 3 then
      (ss.mapM (SlotText.word n)).map fun ws => ws ++ List.replicate (3 - ws.length) (BitVec.ofNat 7 (kNoop n))
    else none

/-- A button's line in a configuration's block. -/
structure TableLine where
  config : Nat
  button : Nat
  line : LineText
deriving DecidableEq, Repr

/-- The table with one line's words written at their addresses `maddr(c,b,1..3)` (R74). -/
def assembleLine (p : Params) (l : TableLine) : Option Params :=
  if l.config < 16 ∧ l.button < p.nButtons then
    match l.line.words p.nBtnKeys with
    | some [w1, w2, w3] =>
      let put (m : Memory) (s : Nat) (w : SlotWord) : Memory := Memory.write p.nBtnKeys m (maddr p.nButtons l.config l.button s) (w.setWidth 8)
      some { p with maptab := put (put (put p.maptab 1 w1) 2 w2) 3 w3 }
    | _ => none
  else none

/-- The parameters with the Mapping Table a text stands for: what no line mentions is NOOP (R74). -/
def assembleTable (p : Params) (ls : List TableLine) : Option Params := ls.foldlM assembleLine { p with maptab := [] }

end Sys2Proof.Machine
end

