-- ==== Sys2Proof/Laws/Ops.lean ====
section
/-! SUPPORT. What each shared operation can do, said once: the tables, the report's key set, the clamp and the lookup, the positions, `andThen`. -/

namespace Sys2Proof.Machine

/-! ## MAPTAB -/

/-- A write keeps the canonical form above a bound. -/
theorem Memory.wfFrom_write {n lo : Nat} {m : Memory} (addr : Nat) (v : Byte) (hm : Memory.wfFrom n lo m = true)
    (h : lo ≤ addr) : Memory.wfFrom n lo (Memory.write n m addr v) = true := by
  induction m generalizing lo with
  | nil =>
    by_cases hv : v = Memory.unlisted n <;> simp [Memory.write, Memory.wfFrom, hv, h]
  | cons c m ih =>
    obtain ⟨a, w⟩ := c
    simp only [Memory.wfFrom, Bool.and_eq_true, decide_eq_true_eq] at hm
    obtain ⟨⟨hlo, hw⟩, hm⟩ := hm
    have widen : ∀ {l : Nat} {q : Memory}, l ≤ a + 1 → Memory.wfFrom n (a + 1) q = true →
        Memory.wfFrom n l q = true := by
      intro l q hl hq
      cases q with
      | nil => rfl
      | cons c q =>
        simp only [Memory.wfFrom, Bool.and_eq_true, decide_eq_true_eq] at hq ⊢
        exact ⟨⟨by omega, hq.1.2⟩, hq.2⟩
    unfold Memory.write
    split
    · split
      · simp [Memory.wfFrom, hlo, hw, hm]
      · rename_i hlt hv
        have hle : addr + 1 ≤ a := hlt
        simp [Memory.wfFrom, h, hv, hw, hm, hle]
    · split
      · split
        · exact widen (by omega) hm
        · rename_i hv
          simp [Memory.wfFrom, hlo, hv, hm]
      · have := ih hm (by omega)
        simp [Memory.wfFrom, hlo, hw, this]

/-- Every memory operation keeps the canonical form: a read changes nothing, a write keeps it. -/
theorem Memory.wf_write {n : Nat} {m : Memory} (addr : Nat) (v : Byte) (hm : Memory.wf n m = true) :
    Memory.wf n (Memory.write n m addr v) = true :=
  Memory.wfFrom_write addr v hm (Nat.zero_le _)

/-- The assembler keeps N_BTN_KEYS and the canonical form, line by line. -/
theorem assembleLine_wf {p q : Params} {l : TableLine} (h : assembleLine p l = some q)
    (hp : Memory.wf p.nBtnKeys p.maptab = true) : Memory.wf q.nBtnKeys q.maptab = true := by
  unfold assembleLine at h
  split at h
  · split at h
    · cases h
      exact Memory.wf_write _ _ (Memory.wf_write _ _ (Memory.wf_write _ _ hp))
    · cases h
  · cases h

/-- Every table the assembler makes has the canonical form. -/
theorem assembleTable_wf {p q : Params} {ls : List TableLine} (h : assembleTable p ls = some q) :
    Memory.wf q.nBtnKeys q.maptab = true := by
  unfold assembleTable at h
  suffices ∀ (ls : List TableLine) (r : Params), Memory.wf r.nBtnKeys r.maptab = true → ls.foldlM assembleLine r = some q →
      Memory.wf q.nBtnKeys q.maptab = true from this ls _ rfl h
  intro ls
  induction ls with
  | nil =>
    intro r hr h
    cases h
    exact hr
  | cons l ls ih =>
    intro r hr h
    rw [List.foldlM_cons] at h
    cases hl : assembleLine r l with
    | none => rw [hl] at h; cases h
    | some r' => rw [hl] at h; exact ih r' (assembleLine_wf hl hr) h

/-- The reset memory has the canonical form. -/
theorem reset_maptab_wf : Memory.wf State.reset.params.nBtnKeys State.reset.params.maptab = true := by decide

/-- What MAPTAB answers (R44). -/
theorem memReadMaptab_of_lt {p : Params} {addr : Nat} (h : addr < 48 * p.nButtons) :
    memReadMaptab p addr = some ((Memory.read p.nBtnKeys p.maptab addr).setWidth 7) := by
  simp [memReadMaptab, h]

/-- Addresses formed from indices in range lie in the table (R44). -/
theorem maddr_lt {n c b s : Nat} (hc : c < 16) (hb : b < n) (hs : s ≤ 3) : maddr n c b s < 48 * n := by
  have h1 : c * n ≤ 15 * n := Nat.mul_le_mul_right n (by omega)
  unfold maddr
  omega

/-! ## LOAD -/

/-- LOAD's words exist for every 4-bit index, one for each slot register, each MAPTAB's word for its button and slot (R91). -/
theorem configWords_eq {p : Params} {c : Nat} (hc : c < 16) :
    configWords p c = some ((List.range (3 * p.nButtons)).map fun i =>
      (Memory.read p.nBtnKeys p.maptab (maddr p.nButtons c (i / 3) (i % 3 + 1))).setWidth 7) := by
  unfold configWords
  have key : ∀ l : List Nat, (∀ i ∈ l, i < 3 * p.nButtons) →
      l.mapM (fun i => memReadMaptab p (maddr p.nButtons c (i / 3) (i % 3 + 1))) =
        some (l.map fun i => (Memory.read p.nBtnKeys p.maptab (maddr p.nButtons c (i / 3) (i % 3 + 1))).setWidth 7) := by
    intro l hl
    induction l with
    | nil => rfl
    | cons i l ih =>
      have hi := hl i (by simp)
      have hlt : maddr p.nButtons c (i / 3) (i % 3 + 1) < 48 * p.nButtons :=
        maddr_lt hc (by omega) (by omega)
      rw [List.mapM_cons, memReadMaptab_of_lt hlt, ih fun j hj => hl j (by simp [hj])]
      rfl
  exact key _ fun i hi => by simpa using hi

/-! ## The report's key set (R176) -/

theorem mem_insertKey {j k : KeyConst} {l : List KeyConst} : j ∈ insertKey k l ↔ j = k ∨ j ∈ l := by
  induction l with
  | nil => simp [insertKey]
  | cons a l ih =>
    unfold insertKey
    split
    · simp
    · split
      · rename_i h
        simp [h]
      · simp [ih]
        tauto

theorem insertKey_sorted {k : KeyConst} {l : List KeyConst} (h : l.Pairwise fun a b => a.toNat < b.toNat) :
    (insertKey k l).Pairwise fun a b => a.toNat < b.toNat := by
  induction l with
  | nil => simp [insertKey]
  | cons a l ih =>
    rw [List.pairwise_cons] at h
    unfold insertKey
    split
    · rename_i hlt
      refine List.pairwise_cons.2 ⟨fun b hb => ?_, List.pairwise_cons.2 h⟩
      rcases List.mem_cons.1 hb with rfl | hb
      · exact hlt
      · exact Nat.lt_trans hlt (h.1 b hb)
    · split
      · exact List.pairwise_cons.2 h
      · rename_i hlt hne
        refine List.pairwise_cons.2 ⟨fun b hb => ?_, ih h.2⟩
        rcases mem_insertKey.1 hb with rfl | hb
        · have : a.toNat ≠ b.toNat := fun e => hne (BitVec.eq_of_toNat_eq e.symm)
          omega
        · exact h.1 b hb

/-! ## The clamp and the lookup (R157, R158) -/

/-- After the clamp the lookup always answers, with the direction that has these increments. -/
theorem dlut_clamp (x y : Acc) : ∃ d, dlut (clamp x) (clamp y) = some d ∧ d.dx = clamp x ∧ d.dy = clamp y := by
  have h3 : ∀ v : Acc, clamp v = -1 ∨ clamp v = 0 ∨ clamp v = 1 := by decide
  rcases h3 x with hx | hx | hx <;> rcases h3 y with hy | hy | hy <;> rw [hx, hy] <;>
    first
      | exact ⟨.center, rfl, rfl, rfl⟩ | exact ⟨.up, rfl, rfl, rfl⟩ | exact ⟨.upRight, rfl, rfl, rfl⟩
      | exact ⟨.right, rfl, rfl, rfl⟩ | exact ⟨.downRight, rfl, rfl, rfl⟩ | exact ⟨.down, rfl, rfl, rfl⟩
      | exact ⟨.downLeft, rfl, rfl, rfl⟩ | exact ⟨.left, rfl, rfl, rfl⟩ | exact ⟨.upLeft, rfl, rfl, rfl⟩

/-! ## Outcomes -/

/-- What `andThen` answers. -/
theorem andThen_eq_next {r : Result} {f : State → State} {t : State} :
    andThen r f = .next t ↔ ∃ u, r = .next u ∧ t = f u := by
  cases r <;> simp [andThen, eq_comm]

@[simp] theorem andThen_next (u : State) (f : State → State) : andThen (.next u) f = .next (f u) := rfl

end Sys2Proof.Machine
end

