-- ==== Sys2Proof/Laws/PerInstr.lean ====
section
/-! SUPPORT. Statements for all instructions, one lemma for each constructor. -/

namespace Sys2Proof.Laws.EncodingSelectsRow

/-- At the reference N_BTN_KEYS, for which the opcode table is printed, the word of a well-formed instruction has the bits its row names (R76). -/
def Statement (i : Instr) : Prop := i.wf refBtnKeys = true → i.row.selects (encode refBtnKeys i) = true

theorem noop : Statement .noop := fun _ => rfl

theorem btn (k : KeyConst) : Statement (.btn k) := by
  unfold Statement
  revert k
  decide

theorem btnT (k : KeyConst) : Statement (.btnT k) := by
  unfold Statement
  revert k
  decide

theorem dpadC : Statement .dpadC := fun _ => rfl

theorem dpadU : Statement .dpadU := fun _ => rfl

theorem dpadUR : Statement .dpadUR := fun _ => rfl

theorem dpadR : Statement .dpadR := fun _ => rfl

theorem dpadDR : Statement .dpadDR := fun _ => rfl

theorem dpadD : Statement .dpadD := fun _ => rfl

theorem dpadDL : Statement .dpadDL := fun _ => rfl

theorem dpadL : Statement .dpadL := fun _ => rfl

theorem dpadUL : Statement .dpadUL := fun _ => rfl

theorem lsC : Statement .lsC := fun _ => rfl

theorem lsU : Statement .lsU := fun _ => rfl

theorem lsUR : Statement .lsUR := fun _ => rfl

theorem lsR : Statement .lsR := fun _ => rfl

theorem lsDR : Statement .lsDR := fun _ => rfl

theorem lsD : Statement .lsD := fun _ => rfl

theorem lsDL : Statement .lsDL := fun _ => rfl

theorem lsL : Statement .lsL := fun _ => rfl

theorem lsUL : Statement .lsUL := fun _ => rfl

theorem rsC : Statement .rsC := fun _ => rfl

theorem rsU : Statement .rsU := fun _ => rfl

theorem rsUR : Statement .rsUR := fun _ => rfl

theorem rsR : Statement .rsR := fun _ => rfl

theorem rsDR : Statement .rsDR := fun _ => rfl

theorem rsD : Statement .rsD := fun _ => rfl

theorem rsDL : Statement .rsDL := fun _ => rfl

theorem rsL : Statement .rsL := fun _ => rfl

theorem rsUL : Statement .rsUL := fun _ => rfl

theorem illegalKey44 (key : KeyId) : Statement (.illegalKey44 key) := by
  unfold Statement
  revert key
  decide

theorem illegalKey48 (key : KeyId) : Statement (.illegalKey48 key) := by
  unfold Statement
  revert key
  decide

theorem illegalTurboK4 (k5 : BitVec 1) (lo : BitVec 4) : Statement (.illegalTurboK4 k5 lo) := by
  unfold Statement
  revert k5 lo
  decide

theorem illegalTurboK5 (key : KeyId) : Statement (.illegalTurboK5 key) := by
  unfold Statement
  revert key
  decide

theorem pinmode : Statement .pinmode := fun _ => rfl

theorem expinit : Statement .expinit := fun _ => rfl

theorem cfgdir : Statement .cfgdir := fun _ => rfl

theorem cfgexp : Statement .cfgexp := fun _ => rfl

theorem load : Statement .load := fun _ => rfl

theorem begin : Statement .begin := fun _ => rfl

theorem relall : Statement .relall := fun _ => rfl

theorem turbo : Statement .turbo := fun _ => rfl

theorem sampleA : Statement .sampleA := fun _ => rfl

theorem sampleB : Statement .sampleB := fun _ => rfl

theorem resolve (b : BitVec 4) (slot : BitVec 2) : Statement (.resolve b slot) := by
  unfold Statement
  revert b slot
  decide

theorem dpadout : Statement .dpadout := fun _ => rfl

theorem commit : Statement .commit := fun _ => rfl

theorem halt : Statement .halt := fun _ => rfl

theorem evBegin : Statement .evBegin := fun _ => rfl

theorem evReleaseAll : Statement .evReleaseAll := fun _ => rfl

theorem evPress (arg : KeyConst) : Statement (.evPress arg) := by
  unfold Statement
  revert arg
  decide

theorem evSetDpad (arg : BitVec 5) : Statement (.evSetDpad arg) := by
  unfold Statement
  revert arg
  decide

theorem evCommit : Statement .evCommit := fun _ => rfl

theorem evDiag (arg : BitVec 5) : Statement (.evDiag arg) := by
  unfold Statement
  revert arg
  decide

end Sys2Proof.Laws.EncodingSelectsRow
end

