-- ==== Sys2Proof/Laws/Step.lean ====
section
/-! SUPPORT. What a slot word, a fetch and a step can do, said once. -/

namespace Sys2Proof.Machine

/-! ## Slot words -/

/-- The legality of R65 and the direction of R64, read off the decoded instruction. -/
def slotShape : Instr → Bool × Option Dir
  | .dpadC => (true, some .center)
  | .dpadU => (true, some .up)
  | .dpadUR => (true, some .upRight)
  | .dpadR => (true, some .right)
  | .dpadDR => (true, some .downRight)
  | .dpadD => (true, some .down)
  | .dpadDL => (true, some .downLeft)
  | .dpadL => (true, some .left)
  | .dpadUL => (true, some .upLeft)
  | .illegalKey44 _ | .illegalKey48 _ | .illegalTurboK4 _ _ | .illegalTurboK5 _ => (false, none)
  | _ => (true, none)

/-- The instructions that are slot words, whatever N_BTN_KEYS. -/
def isSlotInstr (i : Instr) : Bool := match encode refBtnKeys i with | .slot _ => true | _ => false

/-- The key constant of a word that may press is a regular button (R62, R72). -/
def pressInRange (n : Nat) : Instr → Prop
  | .btn k | .btnT k => k.toNat < n
  | _ => True

/-- KEY_W, over the range of N_BTN_KEYS (R5). -/
theorem keyW_eq {n : Nat} (h : n ≤ 32) : keyW n = if n ≤ 4 then 5 else 6 := by
  have key : ∀ m : Fin 33, keyW m.val = if m.val ≤ 4 then 5 else 6 := by decide
  exact key ⟨n, by omega⟩

/-- The decoder of slot words answers slot words only. -/
theorem decodeSlot_isSlot (n : Nat) (w : SlotWord) : isSlotInstr (decodeSlot n w) = true := by
  unfold decodeSlot decodeTurboKey decodePlainKey
  repeat' split
  all_goals rfl

/-- A decoded button word names a regular button. -/
theorem decodeSlot_pressInRange (n : Nat) (w : SlotWord) : pressInRange n (decodeSlot n w) := by
  have key : ∀ k : KeyId, k.toNat < n → (k.setWidth 5).toNat < n := fun k h => by
    rw [BitVec.toNat_setWidth]
    exact Nat.lt_of_le_of_lt (Nat.mod_le _ _) h
  unfold decodeSlot decodeTurboKey decodePlainKey
  repeat' split
  all_goals first | exact trivial | exact key _ ‹_›

/-- A key past the key space is one of the two illegal rows without the turbo tag. -/
theorem decodePlainKey_of_ge {n : Nat} {k : KeyId} (h : nKeys n ≤ k.toNat) :
    decodePlainKey n k = if k.toNat < 48 then .illegalKey44 k else .illegalKey48 k := by
  unfold nKeys at h
  unfold decodePlainKey
  rw [if_neg (by omega)]
  split
  case h_29 => rfl
  all_goals omega

/-- The decoder agrees with R65's legality and R64's directions. -/
theorem decodeSlot_shape (n : Nat) (w : SlotWord) :
    slotShape (decodeSlot n w) = (legal n w, slotDir n w) := by
  unfold slotDir legal decodeSlot isRegularButton isDPadDirection dpBase
  generalize slotKey n w = k
  by_cases hk : k.toNat < n
  · have h1 : k.toNat < nKeys n := by unfold nKeys; omega
    cases slotT n w <;> simp [decodeTurboKey, decodePlainKey, hk, h1, Nat.not_le.2 hk, slotShape]
  · cases slotT n w
    · by_cases hm : k.toNat < nKeys n
      · obtain ⟨m, h1⟩ : ∃ m, k.toNat = n + m := ⟨k.toNat - n, by omega⟩
        have h2 : m < 28 := by unfold nKeys at hm; omega
        interval_cases m <;> simp [decodePlainKey, nKeys, h1, slotShape] <;> rfl
      · rw [if_neg (by decide), decodePlainKey_of_ge (Nat.not_lt.1 hm)]
        split <;> simp [hm, slotShape]
    · rw [if_pos rfl, decodeTurboKey, if_neg hk]
      split <;> simp [hk, slotShape]
/-- `Exec(sw)` is the meaning of the decoded instruction (R153). -/
theorem execSlotWord_eq (w : SlotWord) (s : State) : execSlotWord w s = exec (decodeSlot s.params.nBtnKeys w) s := by
  have h := decodeSlot_isSlot s.params.nBtnKeys w
  unfold execSlotWord
  generalize decodeSlot s.params.nBtnKeys w = i at h ⊢
  cases i <;> first | rfl | cases h

/-- Everything a slot word can do (R120): nothing, one PRESS of a regular button, an addition of its direction, or the fatal entry. -/
theorem execSlotWord_cases (w : SlotWord) (s : State) :
    ∃ t, execSlotWord w s = .next t ∧
      ((legal s.params.nBtnKeys w = true ∧ slotDir s.params.nBtnKeys w = none ∧
          (t = s ∨ ∃ k, k.toNat < s.params.nBtnKeys ∧ t = s.emit (.press k))) ∨
       (∃ d, legal s.params.nBtnKeys w = true ∧ slotDir s.params.nBtnKeys w = some d ∧ t = s.addDir d) ∨
       (legal s.params.nBtnKeys w = false ∧ slotDir s.params.nBtnKeys w = none ∧ t = s.fatal .badSlot)) := by
  have h := decodeSlot_isSlot s.params.nBtnKeys w
  have hs := decodeSlot_shape s.params.nBtnKeys w
  have hk := decodeSlot_pressInRange s.params.nBtnKeys w
  rw [execSlotWord_eq]
  generalize decodeSlot s.params.nBtnKeys w = i at h hs hk
  cases i <;> simp only [slotShape, Prod.mk.injEq] at hs <;>
    first
      | exact ⟨_, rfl, .inl ⟨hs.1.symm, hs.2.symm, .inl rfl⟩⟩
      | exact ⟨_, rfl, .inl ⟨hs.1.symm, hs.2.symm, .inr ⟨_, hk, rfl⟩⟩⟩
      | exact ⟨_, rfl, .inr (.inl ⟨_, hs.1.symm, hs.2.symm, rfl⟩)⟩
      | exact ⟨_, rfl, .inr (.inr ⟨hs.1.symm, hs.2.symm, rfl⟩)⟩
      | exact absurd h Bool.false_ne_true
      | skip
  case btnT k =>
    refine ⟨_, rfl, .inl ⟨hs.1.symm, hs.2.symm, ?_⟩⟩
    by_cases hp : s.turboPhase = true
    · exact .inr ⟨k, hk, by simp [hp]⟩
    · exact .inl (by simp [hp])

/-! ## RESOLVE -/

/-- Everything RESOLVE can do when it answers (R170). -/
theorem execResolve_cases {b : BitVec 4} {slot : BitVec 2} {s t : State} (h : execResolve b slot s = .next t) :
    slot ≠ 0 ∧ b.toNat < s.params.nButtons ∧
      ((s.isPressed b = some false ∧ t = s.setPc (nextButton s.params.nButtons b)) ∨
       (s.isPressed b = some true ∧ ∃ w, s.readKey slot b = some w ∧
         ((legal s.params.nBtnKeys w = true ∧ slotDir s.params.nBtnKeys w = none ∧
            (t = s.setPc (nextSlot s.params.nButtons b slot) ∨
             ∃ k, k.toNat < s.params.nBtnKeys ∧ t = (s.emit (.press k)).setPc (nextSlot s.params.nButtons b slot))) ∨
          (∃ d, legal s.params.nBtnKeys w = true ∧ slotDir s.params.nBtnKeys w = some d ∧
            t = (s.addDir d).setPc (nextSlot s.params.nButtons b slot)) ∨
          (legal s.params.nBtnKeys w = false ∧ t = s.fatal .badSlot)))) := by
  unfold execResolve at h
  split at h
  · cases h
  rename_i hpos
  rw [not_or] at hpos
  refine ⟨hpos.1, by omega, ?_⟩
  split at h
  · cases h
  · cases h
    exact .inl ⟨‹_›, rfl⟩
  · refine .inr ⟨‹_›, ?_⟩
    split at h
    · cases h
    rename_i w hw
    refine ⟨w, hw, ?_⟩
    obtain ⟨u, hu, hcase⟩ := execSlotWord_cases w s
    rw [hu, andThen_next] at h
    cases h
    rcases hcase with ⟨hl, hd, rfl | ⟨k, hk, rfl⟩⟩ | ⟨d, hl, hd, rfl⟩ | ⟨hl, -, rfl⟩
    · exact .inl ⟨hl, hd, .inl (by simp [hl])⟩
    · exact .inl ⟨hl, hd, .inr ⟨k, hk, by simp [hl]⟩⟩
    · exact .inr (.inl ⟨d, hl, hd, by simp [hl]⟩)
    · exact .inr (.inr ⟨hl, by simp [hl]⟩)

/-! ## Fetching -/

/-- The phase of an instruction the sequencer runs at a position with b = 0 and s = 0. -/
def instrOfPhase : Phase → Option Instr
  | .pinmode => some .pinmode
  | .expinit => some .expinit
  | .cfgdir => some .cfgdir
  | .cfgexp => some .cfgexp
  | .load => some .load
  | .begin => some .begin
  | .relall => some .relall
  | .turbo => some .turbo
  | .sampleA => some .sampleA
  | .sampleB => some .sampleB
  | .resolve => none
  | .dpadout => some .dpadout
  | .commit => some .commit
  | .halt => some .halt

theorem word_low (p : Pc) : p.word.extractLsb' 0 6 = p.b ++ p.slot := by
  obtain ⟨a, b, c⟩ := p
  simp only [Pc.word]
  revert a b c
  decide

theorem word_fields (p : Pc) :
    p.word.extractLsb' 6 4 = p.phase ∧ p.word.extractLsb' 2 4 = p.b ∧ p.word.extractLsb' 0 2 = p.slot := by
  obtain ⟨a, b, c⟩ := p
  simp only [Pc.word]
  revert a b c
  decide

theorem append_eq_zero : ∀ (b : BitVec 4) (c : BitVec 2), b ++ c = 0 ↔ b = 0 ∧ c = 0 := by decide

theorem decode_resolveAt : ∀ (b : BitVec 4) (slot : BitVec 2),
    decodePos (Pc.resolveAt b slot).word = .ok (.resolve b slot) := by decide

/-- A position is its word (R16). -/
theorem Pc.ofWord_word (p : Pc) : Pc.ofWord p.word = p := by
  obtain ⟨h1, h2, h3⟩ := word_fields p
  simp [Pc.ofWord, h1, h2, h3]

/-- What can be fetched: the instruction of a phase at `(phase, 0, 0)`, or RESOLVE at any `(RESOLVE, b, s)` (R70). -/
theorem fetch_cases {s : State} {i : Instr} (h : s.fetch = .ok i) :
    (∃ ph, s.pc = Pc.start ph ∧ instrOfPhase ph = some i) ∨
    (∃ b slot, s.pc = Pc.resolveAt b slot ∧ i = .resolve b slot) := by
  obtain ⟨h1, h2, h3⟩ := word_fields s.pc
  have hlow := word_low s.pc
  generalize hpc : s.pc = p at *
  obtain ⟨a, b, c⟩ := p
  simp only [State.fetch, hpc, decode, decodePos, h1, h2, h3, hlow] at h
  have hz := append_eq_zero b c
  have hcode : ∀ ph : Phase, a.toNat = ph.code.toNat → a = ph.code := fun ph e => BitVec.eq_of_toNat_eq e
  have plain : ∀ (ph : Phase) (j : Instr), instrOfPhase ph = some j → a.toNat = ph.code.toNat →
      (if b ++ c = 0 then Decoded.ok j else .reject .strayPosition) = .ok i →
      ∃ ph, (⟨a, b, c⟩ : Pc) = Pc.start ph ∧ instrOfPhase ph = some i := by
    intro ph j hj ha hif
    split at hif
    · rename_i hbc
      obtain ⟨rfl, rfl⟩ := hz.1 hbc
      cases hif
      exact ⟨ph, by simp [Pc.start, hcode ph ha], hj⟩
    · cases hif
  split at h
  · exact .inl (plain .pinmode _ rfl ‹_› h)
  · exact .inl (plain .expinit _ rfl ‹_› h)
  · exact .inl (plain .cfgdir _ rfl ‹_› h)
  · exact .inl (plain .cfgexp _ rfl ‹_› h)
  · exact .inl (plain .load _ rfl ‹_› h)
  · exact .inl (plain .begin _ rfl ‹_› h)
  · exact .inl (plain .relall _ rfl ‹_› h)
  · exact .inl (plain .turbo _ rfl ‹_› h)
  · exact .inl (plain .sampleA _ rfl ‹_› h)
  · exact .inl (plain .sampleB _ rfl ‹_› h)
  · cases h
    have ha : a = Phase.resolve.code := hcode .resolve ‹_›
    exact .inr ⟨b, c, by simp [Pc.resolveAt, ha], rfl⟩
  · exact .inl (plain .dpadout _ rfl ‹_› h)
  · exact .inl (plain .commit _ rfl ‹_› h)
  · exact .inl (plain .halt _ rfl ‹_› h)
  · cases h

theorem fetch_start {s : State} {ph : Phase} {i : Instr} (hpc : s.pc = Pc.start ph) (hi : instrOfPhase ph = some i) :
    s.fetch = .ok i := by
  rw [State.fetch, hpc, decode]
  cases ph <;> cases hi <;> decide

theorem fetch_resolve {s : State} {b : BitVec 4} {slot : BitVec 2} (hpc : s.pc = Pc.resolveAt b slot) :
    s.fetch = .ok (.resolve b slot) := by
  rw [State.fetch, hpc]
  exact decode_resolveAt b slot

/-! ## The step -/

/-- A step that answers is a reset, or an instruction fetched and executed after which the environment moves (R8, R215). -/
theorem step_cases {s t : State} (h : step s = .next t) :
    (s.env.rst = true ∧ t = s.applyReset.advanceEnv) ∨
    (s.env.rst = false ∧ ∃ i u, s.fetch = .ok i ∧ exec i s.quiet = .next u ∧ t = u.advanceEnv) := by
  unfold step at h
  split at h
  · cases h
    exact .inl ⟨‹_›, rfl⟩
  · rename_i hr
    refine .inr ⟨by simpa using hr, ?_⟩
    split at h
    · obtain ⟨u, hu, rfl⟩ := andThen_eq_next.1 h
      exact ⟨_, u, ‹_›, hu, rfl⟩
    · cases h

theorem step_of_rst {s : State} (h : s.env.rst = true) : step s = .next s.applyReset.advanceEnv := by
  simp [step, h]

theorem step_of_fetch {s : State} {i : Instr} (h : s.env.rst = false) (hi : s.fetch = .ok i) :
    step s = andThen (exec i s.quiet) State.advanceEnv := by
  simp [step, h, hi]

/-- A step while `rst` is low, phase by phase: which instruction it ran, from which position. -/
theorem step_phase_cases {s t : State} (h : step s = .next t) :
    (s.env.rst = true ∧ t = s.applyReset.advanceEnv) ∨
    (s.env.rst = false ∧
      ((∃ ph i u, s.pc = Pc.start ph ∧ instrOfPhase ph = some i ∧ exec i s.quiet = .next u ∧ t = u.advanceEnv) ∨
       (∃ b slot u, s.pc = Pc.resolveAt b slot ∧ execResolve b slot s.quiet = .next u ∧ t = u.advanceEnv))) := by
  rcases step_cases h with hr | ⟨hr, i, u, hf, hu, rfl⟩
  · exact .inl hr
  · refine .inr ⟨hr, ?_⟩
    rcases fetch_cases hf with ⟨ph, hpc, hi⟩ | ⟨b, slot, hpc, rfl⟩
    · exact .inl ⟨ph, i, u, hpc, hi, hu, rfl⟩
    · exact .inr ⟨b, slot, u, hpc, hu, rfl⟩

/-! ## CFGEXP -/

/-- The three things a reading can decide (R84). -/
theorem cfgexpReading_cases (s : State) :
    (s.cfgAgrees = true ∧ s.cfgexpReading =
      { s with
        cfgReads := s.cfgReads + 1, cfgWaited := false
        cfgIndex := s.cfgDir ++ BitVec.ofBool s.cfgReading, pc := Pc.start .load }) ∨
    (s.cfgAgrees = false ∧ 0 < s.params.cfgMaxReads ∧ s.params.cfgMaxReads ≤ s.cfgReads + 1 ∧ s.cfgexpReading =
      State.fatal .nonConverge { s with cfgReads := s.cfgReads + 1, cfgWaited := false }) ∨
    (s.cfgAgrees = false ∧ (s.params.cfgMaxReads = 0 ∨ s.cfgReads + 1 < s.params.cfgMaxReads) ∧ s.cfgexpReading =
      { s with
        cfgReads := s.cfgReads + 1, cfgWaited := false
        cfgPrev := s.cfgReading, cfgPrevV := true, pc := Pc.start .cfgexp }) := by
  unfold State.cfgexpReading
  by_cases ha : s.cfgAgrees = true
  · exact .inl ⟨ha, by simp [ha]⟩
  · have ha : s.cfgAgrees = false := by simpa using ha
    by_cases hc : 0 < s.params.cfgMaxReads ∧ s.params.cfgMaxReads ≤ s.cfgReads + 1
    · exact .inr (.inl ⟨ha, hc.1, hc.2, by simp [ha, hc]⟩)
    · exact .inr (.inr ⟨ha, by omega, by simp [ha, hc]⟩)

/-- The delay before a reading, as `now` sees it. -/
theorem now_after_cfgWait (s : State) :
    s.env.now + BitVec.ofNat 32 s.cfgWait =
      if s.cfgPrevV && !s.cfgWaited then s.env.now + BitVec.ofNat 32 s.params.cfgDebounceTicks else s.env.now := by
  cases h : s.cfgPrevV <;> cases h' : s.cfgWaited <;> simp [State.cfgWait, h, h']

/-! ## What each phase can do -/

/-- The one phase whose mode is HALT (R14). -/
theorem mode_halt_iff (p : Pc) : p.mode = some .halt ↔ p.phase = 15 := by
  obtain ⟨a, b, c⟩ := p
  have h : ∀ a : BitVec 4,
      (if a.toNat < 6 then some Mode.boot else if a.toNat < 8 then none
        else if a.toNat < 15 then some .run else some .halt) = some .halt ↔ a = 15 := by decide
  exact h a

/-- What a phase other than RESOLVE can leave when it runs in `s`: the cases of its meaning, with their guards. -/
def PhaseEffect (s : State) : Phase → State → Prop
  | .pinmode, u => u = { s with pinPullup := 0b111, pc := Pc.start .expinit }
  | .expinit, u =>
    (s.env.expDone = false ∧ u = s.request .init) ∨
    (s.env.expDone = true ∧ u = (s.request .init).setPc (Pc.start .cfgdir))
  | .cfgdir, u =>
    u = { s with
      cfgDir := BitVec.ofBool (!s.pinLevel 0) ++ BitVec.ofBool (!s.pinLevel 1) ++ BitVec.ofBool (!s.pinLevel 2)
      pc := Pc.start .cfgexp }
  | .cfgexp, u =>
    ∃ v, v = (s.wait s.cfgWait).request (readOp s.params.cfgExpBank) ∧
      ((s.env.expDone = false ∧ u = { v with cfgWaited := true }) ∨
       (s.env.expDone = true ∧ s.cfgAgrees = true ∧
          u = { v with
            cfgReads := s.cfgReads + 1, cfgWaited := false
            cfgIndex := s.cfgDir ++ BitVec.ofBool s.cfgReading, pc := Pc.start .load }) ∨
       (s.env.expDone = true ∧ s.cfgAgrees = false ∧
          0 < s.params.cfgMaxReads ∧ s.params.cfgMaxReads ≤ s.cfgReads + 1 ∧
          u = State.fatal .nonConverge { v with cfgReads := s.cfgReads + 1, cfgWaited := false }) ∨
       (s.env.expDone = true ∧ s.cfgAgrees = false ∧
          (s.params.cfgMaxReads = 0 ∨ s.cfgReads + 1 < s.params.cfgMaxReads) ∧
          u = { v with
            cfgReads := s.cfgReads + 1, cfgWaited := false
            cfgPrev := s.cfgReading, cfgPrevV := true, pc := Pc.start .cfgexp }))
  | .load, u =>
    u = { s with
      key := (List.range (3 * s.params.nButtons)).map fun i =>
        (Memory.read s.params.nBtnKeys s.params.maptab (maddr s.params.nButtons s.cfgIndex.toNat (i / 3) (i % 3 + 1))).setWidth 7
      pc := Pc.start .begin }
  | .begin, u => u = { s.emit .begin with turboTs := s.env.now, pc := Pc.start .relall }
  | .relall, u => u = { s.emit .releaseAll with x := 0, y := 0, pc := Pc.start .turbo }
  | .turbo, u => u = { s with turboPhase := s.turboPhaseNext, turboTs := s.turboTsNext, pc := Pc.start .sampleA }
  | .sampleA, u =>
    (s.env.expDone = false ∧ u = s.request .readA) ∨
    (s.env.expDone = true ∧ u = { s.request .readA with
      bankA := debounce s.params.debounceTicks s.bankA s.env.expData s.env.now, pc := Pc.start .sampleB })
  | .sampleB, u =>
    (s.env.expDone = false ∧ u = s.request .readB) ∨
    (s.env.expDone = true ∧ u = { s.request .readB with
      bankB := debounce s.params.debounceTicks s.bankB s.env.expData s.env.now, pc := Pc.resolveAt 0 1 })
  | .resolve, _ => False
  | .dpadout, u =>
    ∃ d : Dir, d.dx = clamp s.x ∧ d.dy = clamp s.y ∧
      u = ((s.setXY (clamp s.x) (clamp s.y)).emit (.setDpad d)).setPc (Pc.start .commit)
  | .commit, u => u = (s.emit .commit).setPc (Pc.start .relall)
  | .halt, u => u = s.setPc (Pc.start .halt)

/-- LOAD always answers, with the words of the configuration the index names (R91). -/
theorem execLoad_eq (s : State) :
    execLoad s = .next { s with
      key := (List.range (3 * s.params.nButtons)).map fun i =>
        (Memory.read s.params.nBtnKeys s.params.maptab (maddr s.params.nButtons s.cfgIndex.toNat (i / 3) (i % 3 + 1))).setWidth 7
      pc := Pc.start .begin } := by
  have h : s.cfgIndex.toNat < 16 := s.cfgIndex.isLt
  simp only [execLoad, Nat.not_le.2 h, if_false, configWords_eq h]

/-- DPADOUT always answers (R159). -/
theorem execDpadout_eq (s : State) : ∃ d : Dir, d.dx = clamp s.x ∧ d.dy = clamp s.y ∧
    execDpadout s = .next (((s.setXY (clamp s.x) (clamp s.y)).emit (.setDpad d)).setPc (Pc.start .commit)) := by
  obtain ⟨d, hd, hx, hy⟩ := dlut_clamp s.x s.y
  exact ⟨d, hx, hy, by simp only [execDpadout, hd]⟩

/-- What a phase does is among its cases. -/
theorem phaseEffect_of_exec {s u : State} {ph : Phase} {i : Instr} (hi : instrOfPhase ph = some i)
    (hu : exec i s = .next u) : PhaseEffect s ph u := by
  cases ph <;> cases hi
  case cfgexp.refl =>
    cases hu
    refine ⟨_, rfl, ?_⟩
    cases hd : s.env.expDone
    · exact .inl ⟨rfl, by simp⟩
    · rw [if_pos rfl]
      rcases cfgexpReading_cases ((s.wait s.cfgWait).request (readOp s.params.cfgExpBank)) with
        ⟨h, e⟩ | ⟨h, h2, h3, e⟩ | ⟨h, h2, e⟩
      · exact .inr (.inl ⟨rfl, h, e⟩)
      · exact .inr (.inr (.inl ⟨rfl, h, h2, h3, e⟩))
      · exact .inr (.inr (.inr ⟨rfl, h, h2, e⟩))
  case load.refl =>
    have h := execLoad_eq s
    simp only [exec] at hu
    rw [h] at hu
    cases hu
    rfl
  case dpadout.refl =>
    obtain ⟨d, hx, hy, e⟩ := execDpadout_eq s
    simp only [exec] at hu
    rw [e] at hu
    cases hu
    exact ⟨d, hx, hy, rfl⟩
  case expinit.refl => cases hu; cases hd : s.env.expDone <;> simp [PhaseEffect, hd]
  case sampleA.refl => cases hu; cases hd : s.env.expDone <;> simp [PhaseEffect, hd]
  case sampleB.refl => cases hu; cases hd : s.env.expDone <;> simp [PhaseEffect, hd]
  all_goals (cases hu; rfl)

/-- Everything a step can do: a reset, a phase's effect, or RESOLVE (see `execResolve_cases`); then the environment moves. -/
theorem step_effect {s t : State} (h : step s = .next t) :
    (s.env.rst = true ∧ t = s.applyReset.advanceEnv) ∨
    (s.env.rst = false ∧
      ((∃ ph u, s.pc = Pc.start ph ∧ PhaseEffect s.quiet ph u ∧ t = u.advanceEnv) ∨
       (∃ b slot u, s.pc = Pc.resolveAt b slot ∧ execResolve b slot s.quiet = .next u ∧ t = u.advanceEnv))) := by
  rcases step_phase_cases h with h | ⟨hr, ⟨ph, i, u, hpc, hi, hu, rfl⟩ | h⟩
  · exact .inl h
  · exact .inr ⟨hr, .inl ⟨ph, u, hpc, phaseEffect_of_exec hi hu, rfl⟩⟩
  · exact .inr ⟨hr, .inr h⟩

/-- A run whose first step answers goes on from there. -/
theorem run_of_step {k : Nat} {s t : State} (h : step s = .next t) :
    Host.Core.run Sys2Proof.core (k + 1) s = Host.Core.run Sys2Proof.core k t := by
  have h' : Sys2Proof.core.step s = .next t := h
  simp only [Host.Core.run, h']

end Sys2Proof.Machine
end

