-- ==== Sys2Proof/Laws/Safety.lean ====
section
/-! SUPPORT. What the terms of Safety.lean say of the positions, the fault code and the slot registers, said once. -/

namespace Sys2Proof.Machine

/-! ## Positions -/

/-- A position in RESOLVE is legal when it names a slot register (R16, R17). -/
theorem Pc.legal_resolveAt {n : Nat} {b : BitVec 4} {slot : BitVec 2} :
    (Pc.resolveAt b slot).legal n = true ↔ slot ≠ 0 ∧ b.toNat < n := by
  have e : (Pc.resolveAt b slot).legal n = (decide (slot ≠ 0) && decide (b.toNat < n)) := rfl
  rw [e, Bool.and_eq_true, decide_eq_true_iff, decide_eq_true_iff]

/-- Every other phase has one legal position. -/
theorem Pc.legal_start {n : Nat} {ph : Phase} (h : ph ≠ .resolve) : (Pc.start ph).legal n = true := by
  cases ph <;> first | rfl | exact absurd rfl h

/-- The legal positions, all of them. -/
theorem Pc.legal_cases {n : Nat} {p : Pc} (h : p.legal n = true) :
    (∃ ph, ph ≠ .resolve ∧ p = Pc.start ph) ∨
    (∃ b slot, p = Pc.resolveAt b slot ∧ slot ≠ 0 ∧ b.toNat < n) := by
  obtain ⟨a, b, slot⟩ := p
  by_cases ha : a = Phase.resolve.code
  · subst ha
    exact .inr ⟨b, slot, rfl, Pc.legal_resolveAt.1 h⟩
  · unfold Pc.legal at h
    rw [if_neg ha] at h
    simp only [Bool.and_eq_true, decide_eq_true_eq] at h
    obtain ⟨⟨⟨h6, h7⟩, rfl⟩, rfl⟩ := h
    have key : ∀ a : BitVec 4, a ≠ 6 → a ≠ 7 → a ≠ Phase.resolve.code →
        ∃ ph ∈ [Phase.pinmode, .expinit, .cfgdir, .cfgexp, .load, .begin, .relall, .turbo, .sampleA, .sampleB,
          .dpadout, .commit, .halt], ph.code = a ∧ ph ≠ .resolve := by decide
    obtain ⟨ph, _, rfl, hph⟩ := key a h6 h7 ha
    exact .inl ⟨ph, hph, rfl⟩

/-- Past a button of the walk stands a legal position that is not HALT. -/
theorem nextButton_legal (n : Nat) (b : BitVec 4) :
    (nextButton n b).legal n = true ∧ (nextButton n b).phase ≠ 15 := by
  unfold nextButton
  split
  · have hb : (b + 1).toNat < n := by rw [BitVec.toNat_add]; simp; omega
    exact ⟨Pc.legal_resolveAt.2 ⟨by decide, hb⟩, show (12 : BitVec 4) ≠ 15 by decide⟩
  · exact ⟨rfl, show (13 : BitVec 4) ≠ 15 by decide⟩

/-- Past a slot of the walk stands a legal position that is not HALT. -/
theorem nextSlot_legal {n : Nat} {b : BitVec 4} (slot : BitVec 2) (h : b.toNat < n) :
    (nextSlot n b slot).legal n = true ∧ (nextSlot n b slot).phase ≠ 15 := by
  unfold nextSlot
  split
  · rename_i h3
    have hs : ∀ x : BitVec 2, x.toNat < 3 → x + 1 ≠ 0 := by decide
    exact ⟨Pc.legal_resolveAt.2 ⟨hs _ h3, h⟩, show (12 : BitVec 4) ≠ 15 by decide⟩
  · exact nextButton_legal n b

/-! ## The fault code (R35 d) -/

theorem faultMarksHalt_iff {s : State} : FaultMarksHalt s ↔ (s.fault ≠ 0 ↔ s.pc.phase = 15) := by
  unfold FaultMarksHalt State.mode
  rw [mode_halt_iff]

/-! ## Buttons and slot registers -/

/-- A button that exists has a pin, so an accepted level. -/
theorem isPressed_isSome {s : State} {b : BitVec 4} (hp : LegalParams s.params) (hb : b.toNat < s.params.nButtons) :
    ∃ v, s.isPressed b = some v := by
  have e : b.toNat < s.params.pinmap.length := by rw [hp.pinmap_length]; exact hb
  have h : memReadPinmap s.params b.toNat = some s.params.pinmap[b.toNat] := by
    unfold memReadPinmap
    rw [if_pos hb, List.getElem?_eq_getElem e]
  exact ⟨_, by unfold State.isPressed; rw [h, Option.map_some]⟩

/-- A slot register that exists can be read. -/
theorem readKey_eq {s : State} {b : BitVec 4} {slot : BitVec 2} (hs : slot ≠ 0) (hb : b.toNat < s.params.nButtons) :
    s.readKey slot b = s.key[b.toNat * 3 + (slot.toNat - 1)]? := by
  unfold State.readKey
  rw [if_pos ⟨hs, hb⟩]

/-- The order of the slot registers: register `b*3 + (slot-1)` is that of button `b`, slot `slot`. -/
theorem keyIndex_div_mod {b : BitVec 4} {slot : BitVec 2} (hs : slot ≠ 0) :
    (b.toNat * 3 + (slot.toNat - 1)) / 3 = b.toNat ∧ (b.toNat * 3 + (slot.toNat - 1)) % 3 + 1 = slot.toNat := by
  have h1 : ∀ x : BitVec 2, x ≠ 0 → 0 < x.toNat ∧ x.toNat < 4 := by decide
  have h := h1 slot hs
  omega

/-! ## The sums of the walk (R156, R161) -/

/-- The sums depend on the walk's directions only. -/
theorem sums_congr {s u : State} (h : ∀ j, u.walkDir j = s.walkDir j) (n : Nat) :
    u.sumX n = s.sumX n ∧ u.sumY n = s.sumY n := by
  induction n with
  | zero => exact ⟨rfl, rfl⟩
  | succ n ih => simp only [State.sumX, State.sumY, h, ih.1, ih.2, and_self]

/-- Every position of the walk adds -1, 0 or +1 on each axis. -/
theorem sums_natAbs_le (s : State) (n : Nat) : (s.sumX n).natAbs ≤ n ∧ (s.sumY n).natAbs ≤ n := by
  have hd : ∀ d : Dir, d.dx.toInt.natAbs ≤ 1 ∧ d.dy.toInt.natAbs ≤ 1 := by intro d; cases d <;> decide
  induction n with
  | zero => exact ⟨Nat.le_refl _, Nat.le_refl _⟩
  | succ n ih =>
    simp only [State.sumX, State.sumY]
    cases s.walkDir n with
    | none => simp; omega
    | some d => have := hd d; simp; omega

/-! ## The event stream (R175) -/

/-- One more event word moves the automaton one step. -/
theorem scanStream_append (n : Nat) (l : List EventWord) (w : EventWord) :
    scanStream n (l ++ [w]) = (scanStream n l).bind fun p => p.next n w := by
  unfold scanStream
  rw [List.foldlM_append]
  cases List.foldlM (StreamPos.next n) StreamPos.fresh l <;> simp

end Sys2Proof.Machine
end

