-- ==== Sys2Proof/Tests/Slice0.lean ====
section
/-! SUPPORT. The model's own tests: ill-formed terms the checks refuse, words written out from 30_encoding.md, single steps from the vectors of 95_test_vectors.md, and for every obligation with hypotheses a state and operands that meet them. -/

namespace Sys2Proof.Machine.Tests

/-! ## Helpers -/

/-- The reset state with input ports of known values: a transport that answers FF, pins open. -/
def base : State :=
  { State.resetWith Config.reference with
    env := { now := 0, rst := false, expDone := true, expData := 0xFF, cfgPin := 7, script := [], draws := 0 } }

/-- `base` at a position. -/
def at_ (phase b : BitVec 4) (slot : BitVec 2) : State := { base with pc := ⟨phase, b, slot⟩ }

/-- `base` with the transport silent. -/
def silent : State := { base with env := { base.env with expDone := false } }

/-- `base` at (RESOLVE, 0, 1) with button 0 held and a word in KEY[1][0]. -/
def holding (w : SlotWord) : State :=
  { at_ 12 0 1 with bankA := { acc := 0xFE, prev := 0xFE, ts := 0 }, key := w :: base.key.tail }

/-- One field, or several, of the state a result answers. -/
def look {α : Type} (r : Result) (f : State → α) : Option α :=
  match r with
  | .next t => some (f t)
  | _ => none

def answers (r : Result) : Bool := (look r fun _ => ()).isSome

theorem next_of_answers {r : Result} (h : answers r = true) : ∃ t, r = .next t := by
  cases r with
  | next t => exact ⟨t, rfl⟩
  | fault _ => cases h
  | refused _ => cases h

/-! ## WellFormed: a term each check refuses -/

theorem test_wf_refuses_button_15 : (Instr.resolve 15 1).wf refBtnKeys = false := by decide
theorem test_wf_refuses_slot_0 : (Instr.resolve 0 0).wf refBtnKeys = false := by decide
theorem test_wf_refuses_press_16 : (Instr.evPress 16).wf refBtnKeys = false := by decide
theorem test_wf_refuses_direction_9 : (Instr.evSetDpad 9).wf refBtnKeys = false := by decide
theorem test_wf_refuses_diag_0 : (Instr.evDiag 0).wf refBtnKeys = false := by decide
theorem test_wf_refuses_diag_4 : (Instr.evDiag 4).wf refBtnKeys = false := by decide
theorem test_wf_refuses_the_other_rows_word : (Instr.illegalTurboK5 48).wf refBtnKeys = false := by decide
theorem test_wf_refuses_a_button_past_the_last : (Instr.btn 16).wf refBtnKeys = false ∧ (Instr.btnT 16).wf refBtnKeys = false := by
  decide
theorem test_wf_refuses_legal_keys :
    [Instr.illegalKey44 43, .illegalKey44 48, .illegalKey48 47, .illegalTurboK5 15, .illegalTurboK4 2 0].map (Instr.wf refBtnKeys) =
      [false, false, false, false, true] := by decide
theorem test_wf_accepts_the_bounds :
    [Instr.resolve 14 3, .btn 15, .evPress 15, .evSetDpad 8, .evDiag 1, .evDiag 3, .illegalTurboK5 47].all (Instr.wf refBtnKeys) = true := by
  decide

/-! ## Decode: words written out from R60 to R72 -/

/-- T = 0, key = 0_k (R64). -/
theorem test_decode_btn : decode refBtnKeys (.slot 0b0_00_0101) = .ok (.btn 5) ∧ decode refBtnKeys (.slot 0b0_00_1111) = .ok (.btn 15) := by decide
/-- T = 1, key = 0_k (R64). -/
theorem test_decode_btnT : decode refBtnKeys (.slot 0b1_00_0011) = .ok (.btnT 3) ∧ decode refBtnKeys (.slot 0b1_00_0000) = .ok (.btnT 0) := by decide
/-- Key 43 (R64). -/
theorem test_decode_noop : decode refBtnKeys (.slot 0b0_101011) = .ok .noop := by decide
/-- Keys 16 to 24 (R64). -/
theorem test_decode_dpad :
    [0b0_010000, 0b0_010001, 0b0_010010, 0b0_010011, 0b0_010100, 0b0_010101, 0b0_010110, 0b0_010111, 0b0_011000].map (decodeSlot refBtnKeys) =
      [.dpadC, .dpadU, .dpadUR, .dpadR, .dpadDR, .dpadD, .dpadDL, .dpadL, .dpadUL] := by decide
/-- Keys 25 to 33 (R64). -/
theorem test_decode_left_stick :
    [0b0_011001, 0b0_011010, 0b0_011011, 0b0_011100, 0b0_011101, 0b0_011110, 0b0_011111, 0b0_100000, 0b0_100001].map (decodeSlot refBtnKeys) =
      [.lsC, .lsU, .lsUR, .lsR, .lsDR, .lsD, .lsDL, .lsL, .lsUL] := by decide
/-- Keys 34 to 42 (R64). -/
theorem test_decode_right_stick :
    [0b0_100010, 0b0_100011, 0b0_100100, 0b0_100101, 0b0_100110, 0b0_100111, 0b0_101000, 0b0_101001, 0b0_101010].map (decodeSlot refBtnKeys) =
      [.rsC, .rsU, .rsUR, .rsR, .rsDR, .rsD, .rsDL, .rsL, .rsUL] := by decide
/-- The four illegal rows (R76): key 44 to 47, key 48 to 63, T = 1 with key[4] = 1, T = 1 with key[5] = 1. -/
theorem test_decode_illegal :
    [0b0_101100, 0b0_101111, 0b0_110000, 0b0_111111, 0b1_010001, 0b1_111111, 0b1_100000, 0b1_101011].map (decodeSlot refBtnKeys) =
      [.illegalKey44 44, .illegalKey44 47, .illegalKey48 48, .illegalKey48 63, .illegalTurboK4 0 1, .illegalTurboK4 1 15,
       .illegalTurboK5 32, .illegalTurboK5 43] := by decide
/-- R62 for other values: with 20 button keys DPAD.U is key 21, RS.UL 46, NOOP 47, 48 is illegal; with 4, KEY_W is 5 and T is bit 5. -/
theorem test_decode_other_key_counts :
    keyW 16 = 6 ∧ keyW 20 = 6 ∧ keyW 4 = 5 ∧ keyW 5 = 6 ∧
    ([19, 21, 46, 47, 48, 83].map fun w => decodeSlot 20 (BitVec.ofNat 7 w)) =
      [.btn 19, .dpadU, .rsUL, .noop, .illegalKey48 48, .btnT 19] ∧
    ([3, 5, 31, 35, 36].map fun w => decodeSlot 4 (BitVec.ofNat 7 w)) =
      [.btn 3, .dpadU, .noop, .btnT 3, .illegalTurboK5 4] := by decide
/-- The phases with b = 0 and s = 0 (R70). -/
theorem test_decode_phases :
    [0b0000_0000_00, 0b0001_0000_00, 0b0010_0000_00, 0b0011_0000_00, 0b0100_0000_00, 0b0101_0000_00, 0b1000_0000_00,
      0b1001_0000_00, 0b1010_0000_00, 0b1011_0000_00, 0b1101_0000_00, 0b1110_0000_00, 0b1111_0000_00].map decodePos =
      [.ok .pinmode, .ok .expinit, .ok .cfgdir, .ok .cfgexp, .ok .load, .ok .begin, .ok .relall, .ok .turbo, .ok .sampleA,
       .ok .sampleB, .ok .dpadout, .ok .commit, .ok .halt] := by decide
/-- RESOLVE's operands b and s (R70). -/
theorem test_decode_resolve : decode refBtnKeys (.pos 0b1100_1110_11) = .ok (.resolve 14 3) ∧ decode refBtnKeys (.pos 0b1100_0000_01) = .ok (.resolve 0 1) := by
  decide
/-- Codes 6 and 7, and a stray operand, are rejected by name (R70). -/
theorem test_decode_rejects_positions :
    [0b0110_0000_00, 0b0111_0000_00, 0b1000_0001_00, 0b1111_0000_01].map decodePos =
      [.reject .unusedPhase, .reject .unusedPhase, .reject .strayPosition, .reject .strayPosition] := by decide
/-- Operation in bits 7 to 5, argument below (R72). -/
theorem test_decode_events :
    [0b000_00000, 0b001_00000, 0b010_01111, 0b011_01000, 0b100_00000, 0b111_00010].map decodeEvent =
      [.ok .evBegin, .ok .evReleaseAll, .ok (.evPress 15), .ok (.evSetDpad 8), .ok .evCommit, .ok (.evDiag 2)] := by decide
theorem test_decode_rejects_events :
    [0b101_00000, 0b110_00000, 0b000_00001, 0b100_00001].map decodeEvent =
      [.reject .unusedEventOp, .reject .unusedEventOp, .reject .strayEventArg, .reject .strayEventArg] := by decide
/-- 60 legal words and 68 illegal ones (part 3 of the vectors, R66). -/
theorem test_legal_count : ((List.range 128).filter fun n => legal refBtnKeys (BitVec.ofNat 7 n)).length = 60 := by decide
/-- The host's numbering: a slot word, a position, an event word. -/
theorem test_table_words :
    decodeTableWord 8 0x2B = some .noop ∧ decodeTableWord 16 0x301 = some (.resolve 0 1) ∧
    decodeTableWord 8 0x80 = some .evCommit ∧ decodeTableWord 16 0x180 = none := by decide

/-! ## Slot words (vectors SW) -/

def xyAfter (w : SlotWord) (x y : Acc) : Option (Acc × Acc) :=
  look (exec (decodeSlot refBtnKeys w) { base with x := x, y := y }) fun t => (t.x, t.y)

/-- SW9 to SW17. -/
theorem test_dpad_words :
    ([0x10, 0x11, 0x12, 0x13, 0x14, 0x15, 0x16, 0x17, 0x18].map fun w => xyAfter w 0 0) =
      [some (0, 0), some (0, 1), some (1, 1), some (1, 0), some (1, -1), some (0, -1), some (-1, -1), some (-1, 0), some (-1, 1)] := by
  decide
/-- SW18, SW19. -/
theorem test_dpad_from : xyAfter 0x13 2 (-1) = some (3, -1) ∧ xyAfter 0x17 (-44) 0 = some (-45, 0) := by decide
/-- SW3, SW4. -/
theorem test_btn : look (exec (.btn 4) base) State.events = some [0x44] ∧
    look (exec (.btn 15) { base with turboPhase := true }) State.events = some [0x4F] := by decide
/-- SW6, SW7. -/
theorem test_btnT : look (exec (.btnT 0) base) State.events = some [] ∧
    look (exec (.btnT 15) { base with turboPhase := true }) State.events = some [0x4F] := by decide
/-- SW20, SW21: no event, no increment. -/
theorem test_stick_words :
    ((List.range 18).map fun n => look (exec (decodeSlot refBtnKeys (BitVec.ofNat 7 (0x19 + n))) base) fun t => (t.events, t.x, t.y)) =
      List.replicate 18 (some ([], 0, 0)) := by decide
/-- SW22 to SW25. -/
theorem test_illegal_words :
    ([0x2C, 0x3F, 0x50, 0x51, 0x58, 0x59, 0x6A, 0x6B, 0x7F].map fun w =>
        look (exec (decodeSlot refBtnKeys w) base) fun t => (t.fault, t.events, t.pc.word)) =
      List.replicate 9 (some (3, [0xE3], 0x3C0)) := by decide

/-! ## Boot -/

/-- P1: `pin_pullup` becomes 0b111. -/
theorem test_pinmode : look (exec .pinmode base) State.pinPullup = some 7 := by decide
/-- P1: `exp_op` shows 1. -/
theorem test_expinit : look (exec .expinit base) (fun t => (t.expOp.code, t.pc.word)) = some (1, 0x080) := by decide
/-- CS1 and CS5. -/
theorem test_cfgdir :
    look (exec .cfgdir { base with env := { base.env with cfgPin := 0b011 } }) State.cfgDir = some 0b001 ∧
    look (exec .cfgdir { base with env := { base.env with cfgPin := 0b110 } }) State.cfgDir = some 0b100 := by decide
/-- CS10, CS11: bit 7 of the byte, active low; no wait before the first reading. -/
theorem test_cfgexp_first :
    look (exec .cfgexp { base with env := { base.env with expData := 0x7F } }) (fun t => (t.cfgPrev, t.env.now, t.expOp.code)) =
      some (true, 0, 3) := by decide
/-- CS1, second reading: index 2 after a wait of 5000 ticks. -/
theorem test_cfgexp_second :
    look (exec .cfgexp { base with cfgDir := 0b001, cfgPrevV := true, cfgReads := 1 })
      (fun t => (t.cfgIndex, t.cfgReads, t.env.now, t.pc.word)) = some (2, 2, 5000, 0x100) := by decide
/-- The Wait comes before the READ (R84, R7): a silent transport sees the request 5000 ticks later, and the Wait is made once. -/
theorem test_cfgexp_silent :
    look (andThen (exec .cfgexp { silent with cfgPrevV := true }) fun t => { t with env := { t.env with now := t.env.now + 7 } })
      (fun t => (t.env.now, t.expOp.code, t.cfgWaited, (look (exec .cfgexp t) fun u => u.env.now))) =
      some (5007, 3, true, some 5007) := by decide
/-- LD1. -/
theorem test_load_0 :
    look (exec .load base) (fun t => (t.readKey 1 0, t.readKey 1 3, t.readKey 1 14, t.readKey 3 7)) =
      some (some 0x11, some 0x13, some 0x0A, some 0x2B) := by decide
/-- LD2 and LD4. -/
theorem test_load_1_15 :
    look (exec .load { base with cfgIndex := 1 }) (fun t => (t.readKey 1 9, t.readKey 2 9, t.readKey 3 9)) =
      some (some 0x01, some 0x02, some 0x43) ∧
    look (exec .load { base with cfgIndex := 15 }) (fun t => (t.readKey 1 0, t.readKey 2 1, t.fault)) =
      some (some 0x51, some 0x2C, 0) := by decide
/-- P1. -/
theorem test_begin :
    look (exec .begin { base with env := { base.env with now := 6000 } }) (fun t => (t.turboTs, t.events, t.pc.word)) =
      some (6000, [0x00], 0x200) := by decide

/-! ## The cycle -/

theorem test_relall :
    look (exec .relall { base with x := 3, y := -1, layer := { base.layer with keys := [1, 2] } })
      (fun t => (t.x, t.y, t.layer.keys, t.events)) = some (0, 0, [], [0x20]) := by decide
/-- TB1, TB2 and TB3. -/
theorem test_turbo :
    ([13299, 13300, 70000].map fun n => look (exec .turbo { base with env := { base.env with now := n } })
      fun t => (t.turboPhase, t.turboTs)) = [some (false, 0), some (true, 13300), some (true, 70000)] := by decide
/-- TB4, across the wrap. -/
theorem test_turbo_wrap :
    look (exec .turbo { base with turboPhase := true, turboTs := 0xFFFFFF00, env := { base.env with now := 0x32F4 } })
      (fun t => (t.turboPhase, t.turboTs)) = some (false, 0x32F4) := by decide
/-- DB1 to DB7, DB11, DB14, DB15. -/
theorem test_debounce :
    debounce 5000 ⟨0xFF, 0xFF, 0⟩ 0xFE 1000 = ⟨0xFF, 0xFE, 1000⟩ ∧
    debounce 5000 ⟨0xFF, 0xFE, 1000⟩ 0xFE 6000 = ⟨0xFF, 0xFE, 1000⟩ ∧
    debounce 5000 ⟨0xFF, 0xFE, 1000⟩ 0xFE 6001 = ⟨0xFE, 0xFE, 1000⟩ ∧
    debounce 5000 ⟨0xFE, 0xFE, 1000⟩ 0xFE 7000 = ⟨0xFE, 0xFE, 1000⟩ ∧
    debounce 5000 ⟨0xFF, 0xFE, 1000⟩ 0xFF 3000 = ⟨0xFF, 0xFF, 3000⟩ ∧
    debounce 5000 ⟨0xFF, 0xFF, 3000⟩ 0xFF 9000 = ⟨0xFF, 0xFF, 3000⟩ ∧
    debounce 5000 ⟨0xFF, 0xFE, 0xFFFFF000⟩ 0xFE 0x388 = ⟨0xFF, 0xFE, 0xFFFFF000⟩ ∧
    debounce 5000 ⟨0xFF, 0xFE, 0xFFFFF000⟩ 0xFE 0x400 = ⟨0xFE, 0xFE, 0xFFFFF000⟩ ∧
    debounce 5000 ⟨0xFF, 0xFF, 0⟩ 0xFE 1000000 = ⟨0xFF, 0xFE, 1000000⟩ ∧
    debounce 5000 ⟨0xFF, 0xFE, 1000⟩ 0xFD 6001 = ⟨0xFF, 0xFD, 6001⟩ := by decide
/-- CY1: SAMPLE.A accepts button 0. -/
theorem test_sampleA :
    look (exec .sampleA { base with
        bankA := ⟨0xFF, 0xFE, 1000⟩, env := { base.env with expData := 0xFE, now := 6001 } })
      (fun t => (t.bankA, t.bankB.acc, t.expOp.code)) = some (⟨0xFE, 0xFE, 1000⟩, 0xFF, 2) := by decide
/-- P3, cycle 1. -/
theorem test_sampleB :
    look (exec .sampleB { base with env := { base.env with expData := 0x7E, now := 10300 } })
      (fun t => (t.bankB, t.pc.word, t.expOp.code)) = some (⟨0xFF, 0x7E, 10300⟩, 0x301, 3) := by decide
/-- IP1, IP2 and IP4. -/
theorem test_isPressed :
    ((List.range 9).map fun n => ({ base with bankA := { base.bankA with acc := 0xB6 } } : State).isPressed (BitVec.ofNat 4 n)) =
      [some true, some false, some false, some true, some false, some false, some true, some false, some false] ∧
    ({ base with bankB := { base.bankB with acc := 0x7E } } : State).isPressed 8 = some true ∧
    ({ base with bankB := { base.bankB with acc := 0x7E } } : State).isPressed 14 = some false := by decide
/-- RW1 and RW2: an unpressed button is skipped, a pressed one's next slot follows. -/
theorem test_resolve :
    look (exec (.resolve 14 1) (at_ 12 14 1)) (fun t => t.pc.word) = some 0x340 ∧
    look (exec (.resolve 0 1) (holding 0x11)) (fun t => (t.pc.word, t.y)) = some (0x302, 1) := by decide
/-- FT1. -/
theorem test_resolve_illegal :
    look (exec (.resolve 0 1) (holding 0x51)) (fun t => (t.pc.word, t.fault, t.events)) = some (0x3C0, 3, [0xE3]) := by decide
/-- SO12 and SO16. -/
theorem test_dpadout :
    look (exec .dpadout { base with x := -1, y := 3 }) (fun t => (t.events, t.x, t.y)) = some ([0x68], -1, 1) ∧
    look (exec .dpadout { base with x := -2 }) State.events = some [0x67] := by decide
/-- Part 8: the clamp, and LU1 to LU9. -/
theorem test_clamp_and_lookup :
    ([-45, -2, -1, 0, 1, 3, 45].map clamp) = [-1, -1, -1, 0, 1, 1, 1] ∧
    ([(0, 0), (0, 1), (1, 1), (1, 0), (1, -1), (0, -1), (-1, -1), (-1, 0), (-1, 1)].map fun e => (dlut e.1 e.2).map Dir.offset) =
      [some 0, some 1, some 2, some 3, some 4, some 5, some 6, some 7, some 8] := by decide
theorem test_commit :
    look (exec .commit { base with layer := { base.layer with keys := [0], dpad := some .up } })
      (fun t => (t.events, t.layer.committed, t.pc.word)) = some ([0x80], some ⟨[0], some .up⟩, 0x200) := by decide
/-- FT5. -/
theorem test_halt : look (exec .halt (at_ 15 0 0)) (fun t => (t.events, t.pc.word)) = some ([], 0x3C0) := by decide
/-- FT6. -/
theorem test_reset_leaves_halt :
    look (step { at_ 15 0 0 with fault := 3, env := { base.env with rst := true, script := [⟨1, false, true, 0, 0⟩] } })
      (fun t => (t.pc.word, t.fault)) = some (0x000, 0) := by decide

/-! ## Event words, the assembler -/

/-- 45 PRESS 5, taken twice, is one key (R176). -/
theorem test_event_press :
    look (andThen (exec (.evPress 5) base) fun t => (t.emit (.press 5))) (fun t => (t.events, t.layer.keys)) =
      some ([0x45, 0x45], [5]) := by decide
theorem test_event_dpad : look (exec (.evSetDpad 8) base) (fun t => (t.events, t.layer.dpad)) = some ([0x68], some .upLeft) := by decide
theorem test_event_diag :
    ([1, 2, 3].map fun a => look (exec (.evDiag a) base) State.events) = [some [0xE1], some [0xE2], some [0xE3]] := by decide
theorem test_event_plain :
    ([Instr.evBegin, .evReleaseAll, .evCommit].map fun i => look (exec i base) State.events) =
      [some [0x00], some [0x20], some [0x80]] := by decide
/-- Part 2: maddr(2,6,2) = 109 and maddr(15,14,3) = 719. -/
theorem test_maddr : maddr 15 2 6 2 = 109 ∧ maddr 15 15 14 3 = 719 ∧ maddr 15 1 8 1 = 69 := by decide
/-- Config 1 and 15 of the text of TT (part 2), with an omitted slot and a raw word. -/
theorem test_assemble :
    (assembleTable Config.reference [⟨1, 8, .slots [.turbo 0]⟩, ⟨1, 9, .slots [.instr (.btn 1), .instr (.btn 2), .instr (.btnT 3)]⟩,
        ⟨15, 0, .slots [.raw 0x51]⟩, ⟨15, 1, .slots [.instr (.btn 1), .raw 0x2C, .instr (.btn 2)]⟩, ⟨15, 2, .unmapped⟩]).map Params.maptab =
      some (Config.refTable1 ++ Config.refTable15) := by decide
/-- An illegal word, a fourth slot and a button that does not exist are refused. -/
theorem test_assemble_refuses :
    [assembleLine Config.reference ⟨0, 0, .slots [.instr (.illegalKey44 44)]⟩,
     assembleLine Config.reference ⟨0, 0, .slots [.up, .up, .up, .up]⟩,
     assembleLine Config.reference ⟨0, 15, .unmapped⟩] = [none, none, none] := by decide

/-! ## Witnesses: the hypotheses of the obligations can be met -/

/-- Parameters with the configuration bit on bank A, four button keys (KEY_W = 5) and an empty table. -/
def paramsA : Params :=
  { Config.reference with nButtons := 9, pinmap := [0, 1, 2, 3, 4, 5, 6, 8, 9], cfgExpBank := .A, nBtnKeys := 4, maptab := [] }

theorem witness_LegalParams : LegalParams Config.reference :=
  ⟨by decide, by decide, rfl, by decide, by decide, by decide, by decide, by decide, by decide, by decide, by decide⟩

theorem witness_LegalParams_bankA : LegalParams paramsA :=
  ⟨by decide, by decide, rfl, by decide, by decide, by decide, by decide, by decide, by decide, by decide, by decide⟩

theorem witness_WfMaptab : WfMaptab paramsA ∧ paramsA.cfgMaxReads = 0 :=
  ⟨fun _ _ _ hc hb _ hs =>
    ⟨_, memReadMaptab_of_lt (maddr_lt hc hb hs), show legal 4 ((Memory.unlisted 4).setWidth 7) = true by decide⟩, rfl⟩

theorem witness_DecodingUndoesEncoding :
    refBtnKeys ≤ 32 ∧ (Instr.btnT 15).wf refBtnKeys = true ∧ (Instr.btnT 31).wf 32 = true ∧ (Instr.illegalTurboK5 4).wf 4 = true ∧
    (Instr.resolve 14 3).wf refBtnKeys = true ∧ (Instr.evDiag 3).wf refBtnKeys = true := by decide
theorem witness_EncodingUndoesDecoding :
    (Code.slot 0x3F).fits 4 = true ∧ decode 4 (.slot 0x3F) = .ok (.illegalTurboK4 0 15) ∧ (Instr.illegalTurboK4 0 15).wf 4 = true ∧
    decode refBtnKeys (.pos 0x33B) = .ok (.resolve 14 3) ∧ (Instr.resolve 14 3).wf refBtnKeys = true := by decide
/-- The bounds of the eight ranges of R66. -/
theorem witness_SlotWordsDivideAsTabled :
    (0x0F : SlotWord).toNat ≤ 0x0F ∧ 0x40 ≤ (0x40 : SlotWord).toNat ∧ (0x4F : SlotWord).toNat ≤ 0x4F ∧
    0x10 ≤ (0x10 : SlotWord).toNat ∧ (0x18 : SlotWord).toNat ≤ 0x18 ∧ 0x19 ≤ (0x19 : SlotWord).toNat ∧
    (0x21 : SlotWord).toNat ≤ 0x21 ∧ 0x22 ≤ (0x22 : SlotWord).toNat ∧ (0x2A : SlotWord).toNat ≤ 0x2A ∧
    0x2C ≤ (0x2C : SlotWord).toNat ∧ (0x3F : SlotWord).toNat ≤ 0x3F ∧ 0x50 ≤ (0x50 : SlotWord).toNat := by decide
/-- The bounds of N_BTN_KEYS, and those of KEY_W = 5 and 6, with the words of NOOP there and with the turbo tag. -/
theorem witness_NoopChangesNothing :
    ([0, 4, 5, 16, 32].all fun n => decide (n ≤ 32)) = true ∧
    ([0, 4, 5, 16, 32].map fun n => ((BitVec.ofNat 7 (n + 27) : SlotWord), (BitVec.ofNat 7 (2 ^ keyW n + n + 27) : SlotWord))) =
      [(0x1B, 0x3B), (0x1F, 0x3F), (0x20, 0x60), (0x2B, 0x6B), (0x3B, 0x7B)] := by decide
theorem witness_DpadAdditionsNeverWrap :
    slotDir base.params.nBtnKeys 0x12 = some .upRight ∧ -45 < (44 : Acc).toInt ∧ (44 : Acc).toInt < 45 ∧ -45 < (-44 : Acc).toInt ∧ (-44 : Acc).toInt < 45 := by
  decide
theorem witness_ButtonWordPressesItsKey : (15 : KeyConst).toNat < base.params.nBtnKeys := by decide
theorem witness_TurboButtonPressesOnlyWhenOn :
    (15 : KeyConst).toNat < 16 ∧ base.params.nBtnKeys ≤ 32 ∧ (15 : KeyConst).toNat < base.params.nBtnKeys ∧
    base.turboPhase = false ∧ ({ base with turboPhase := true } : State).turboPhase = true := by decide
theorem witness_IllegalWordsTakeBadSlot :
    ∀ w ∈ ([0x2C, 0x3F, 0x50, 0x7F] : List SlotWord), legal base.params.nBtnKeys w = false := by decide
theorem witness_EveryIllegalRowHalts :
    Instr.illegalTurboK5 47 ∈ [Instr.illegalKey44 44, .illegalKey48 63, .illegalTurboK4 1 15, .illegalTurboK5 47] := by decide
theorem witness_LegalWordsDoNothingElse :
    ∀ w ∈ ([0x00, 0x18, 0x2B, 0x4F] : List SlotWord), legal base.params.nBtnKeys w = true := by decide
theorem witness_transport_answers : base.env.expDone = true ∧ silent.env.expDone = false := by decide
theorem witness_CfgexpEndsOnAgreement :
    let s := { base with cfgPrevV := true }
    s.env.expDone = true ∧ s.cfgPrevV = true ∧ false = !s.env.expData.getLsbD s.params.cfgExpBit.toNat ∧ false = s.cfgPrev := by
  decide
/-- No cap, and a cap of 2 before its last reading. -/
theorem witness_CfgexpRepeatsOnDisagreement :
    ∀ s ∈ [base, { base with cfgPrevV := true, cfgPrev := true }, { base with cfgPrevV := true, cfgPrev := true, cfgWaited := true },
        { base with params := { base.params with cfgMaxReads := 2 } }],
      s.env.expDone = true ∧ false = (!s.env.expData.getLsbD s.params.cfgExpBit.toNat) ∧
      (s.cfgPrevV = true → false ≠ s.cfgPrev) ∧ (s.params.cfgMaxReads = 0 ∨ s.cfgReads + 1 < s.params.cfgMaxReads) := by decide
/-- CS9: a cap of 2, second reading. -/
theorem witness_CfgexpHaltsAtTheCap :
    let s := { base with cfgPrevV := true, cfgPrev := true, cfgReads := 1, params := { base.params with cfgMaxReads := 2 } }
    s.env.expDone = true ∧ false = (!s.env.expData.getLsbD s.params.cfgExpBit.toNat) ∧ (s.cfgPrevV = true → false ≠ s.cfgPrev) ∧
      0 < s.params.cfgMaxReads ∧ s.params.cfgMaxReads ≤ s.cfgReads + 1 := by decide
/-- The inputs of P1's boot. -/
theorem witness_BootReachesRun :
    let m : EnvMove := ⟨1000, false, true, 0xFF, 0b111⟩
    let e : Env := { base.env with script := [m, m, m, m, m, m, m] }
    e.rst = false ∧ e.script = m :: m :: m :: m :: m :: m :: m :: [] ∧ (∀ n ∈ [m, m, m, m, m, m], n.rst = false) ∧
      (∀ n ∈ [m, m, m], n.expDone = true) ∧ Config.reference.cfgMaxReads ≠ 1 ∧
      m.expData.getLsbD Config.reference.cfgExpBit.toNat = m.expData.getLsbD Config.reference.cfgExpBit.toNat := by decide
theorem witness_SampleADebouncesBankA :
    base.env.expDone = true ∧ (0 : Time) = (if base.env.expData ≠ base.bankA.prev then base.env.now else base.bankA.ts) := by decide
theorem witness_SampleBDebouncesBankB :
    base.env.expDone = true ∧ (0 : Time) = (if base.env.expData ≠ base.bankB.prev then base.env.now else base.bankB.ts) := by decide
/-- The samples of DB1 to DB4: 5000 ticks are within the window, 5001 are past it. -/
theorem witness_StableReadingIsAccepted :
    (0xFE : Byte) ≠ BankState.reset.prev ∧ (0xFE : Byte) ≠ BankState.reset.acc ∧
      (∀ u ∈ ([3000, 6000] : List Time), (u - 1000).toNat ≤ 5000) ∧
      ((6000 : Time) - 1000).toNat ≤ 5000 ∧ 5000 < ((6001 : Time) - 1000).toNat :=
  ⟨by decide, by decide, by simp, by simp, by simp⟩
theorem witness_AcceptedReadingIsPromotedOnce :
    (⟨0xFE, 0xFE, 1000⟩ : BankState).acc = 0xFE ∧ (⟨0xFE, 0xFE, 1000⟩ : BankState).prev = 0xFE := by decide
/-- The reset machine at (RELALL,0,0) with 51 moves to come. -/
theorem witness_CycleIsItsFunction :
    let m : EnvMove := ⟨100, false, true, 0xFE, 7⟩
    let s : State := { at_ 8 0 0 with env := { base.env with script := m :: m :: m :: List.replicate 48 m } }
    LegalParams s.params ∧ s.key.length = 3 * s.params.nButtons ∧ s.pc = ⟨8, 0, 0⟩ ∧ s.env.rst = false ∧
      s.env.script = m :: m :: m :: List.replicate 48 m ∧ 3 * s.params.nButtons + 3 ≤ (List.replicate 48 m).length ∧
      (∀ n ∈ s.env.script, n.rst = false) ∧ m.expDone = true ∧ (100 : Time) = s.env.now + m.ticks ∧
      (200 : Time) = 100 + m.ticks ∧ (300 : Time) = 200 + m.ticks :=
  ⟨witness_LegalParams, by decide, rfl, rfl, rfl, by decide, by decide, rfl, by decide, by decide, by decide⟩
/-- P1, cycle 4, by the function: button 0 is accepted and "up" is shown. -/
theorem test_cycle_function :
    let r := ({ at_ 8 0 0 with
        key := 0x11 :: List.replicate 44 0x2B, turboTs := 6000, bankA := ⟨0xFF, 0xFE, 6200⟩ } : State).cycle 12100 0xFE 12200 0xFF 12300
    r.2 = [0x20, 0x61, 0x80] ∧ (r.1.x, r.1.y) = (0, 1) ∧ r.1.bankA = ⟨0xFE, 0xFE, 6200⟩ := by decide
theorem witness_PressedMeansAcceptedLow :
    LegalParams base.params ∧ (14 : BitVec 4).toNat < base.params.nButtons ∧ base.params.nButtons ≤ (15 : BitVec 4).toNat :=
  ⟨witness_LegalParams, by decide, by decide⟩
theorem witness_ConfigurationBitIsNoButton :
    (∀ i, i ≠ 7 → (0x7E : Byte).getLsbD i = (0xFE : Byte).getLsbD i) ∧
    LegalParams Config.reference ∧ Config.reference.cfgExpBank = .B ∧ LegalParams paramsA ∧ paramsA.cfgExpBank = .A := by
  refine ⟨fun i hi => ?_, witness_LegalParams, rfl, witness_LegalParams_bankA, rfl⟩
  by_cases h : i < 8
  · have key : ∀ j : Fin 8, j.val ≠ 7 → (0x7E : Byte).getLsbD j = (0xFE : Byte).getLsbD j := by decide
    exact key ⟨i, h⟩ hi
  · rw [BitVec.getLsbD_of_ge _ _ (by omega), BitVec.getLsbD_of_ge _ _ (by omega)]
theorem witness_TurboTogglesAtItsPeriod :
    base.params.turboPeriodTicks ≤ ((13300 : Time) - base.turboTs).toNat ∧
    ((13299 : Time) - base.turboTs).toNat < base.params.turboPeriodTicks := by decide
/-- Unpressed; pressed with a legal word; pressed with an illegal one. -/
theorem witness_ResolveWalksTheButtons :
    (1 : BitVec 2) ≠ 0 ∧ (14 : BitVec 4).toNat < base.params.nButtons ∧ base.isPressed 14 = some false ∧
    (holding 0x40).isPressed 0 = some true ∧ (holding 0x40).readKey 1 0 = some 0x40 ∧ legal base.params.nBtnKeys 0x40 = true ∧
    (holding 0x51).isPressed 0 = some true ∧ (holding 0x51).readKey 1 0 = some 0x51 ∧ legal base.params.nBtnKeys 0x51 = false := by decide
theorem witness_EventWordsReachTheLayer :
    (15 : KeyConst).toNat < base.params.nBtnKeys ∧ (8 : BitVec 5).toNat < 9 ∧ 0 < (1 : BitVec 5).toNat ∧ (3 : BitVec 5).toNat < 4 := by decide
theorem witness_NeverEmittedEventsAreRefused :
    base.params.nBtnKeys ≤ (16 : KeyConst).toNat ∧ 9 ≤ (9 : BitVec 5).toNat ∧ (0 : BitVec 5).toNat = 0 ∧ 4 ≤ (4 : BitVec 5).toNat := by decide
theorem witness_StepRunsTheDecodedInstruction :
    (at_ 8 0 0).env.rst = false ∧ decode (at_ 8 0 0).params.nBtnKeys (.pos (at_ 8 0 0).pc.word) = .ok .relall := by decide
theorem witness_StepRunsTheSlotWord :
    ∀ w ∈ ([0x11, 0x51] : List SlotWord),
      (holding w).env.rst = false ∧ (holding w).pc.phase = 12 ∧ (holding w).pc.slot ≠ 0 ∧
      (holding w).pc.b.toNat < (holding w).params.nButtons ∧ (holding w).isPressed (holding w).pc.b = some true ∧
      (holding w).readKey (holding w).pc.slot (holding w).pc.b = some w := by decide
theorem witness_StrayPositionsAreRefused :
    ∀ s ∈ [at_ 6 0 0, at_ 7 0 0, at_ 12 0 0, at_ 12 15 1, at_ 8 1 0, at_ 15 0 1],
      s.env.rst = false ∧ s.pc.legal s.params.nButtons = false := by decide
theorem witness_StrayPositionsAreRefused_resolve :
    ((0 : BitVec 2) = 0 ∨ base.params.nButtons ≤ (0 : BitVec 4).toNat) ∧
    ((3 : BitVec 2) = 0 ∨ base.params.nButtons ≤ (15 : BitVec 4).toNat) := by decide

/-- The environment moves of these states are scripted, so that their steps can be evaluated. -/
def scripted (s : State) : State := { s with env := { s.env with script := [⟨1, false, true, 0xFF, 7⟩] } }

/-- One state for each row of R17. -/
theorem witness_StepFollowsTheTransitionTable :
    ∀ s ∈ [at_ 0 0 0, at_ 1 0 0, at_ 2 0 0, { at_ 3 0 0 with cfgPrevV := true }, at_ 3 0 0,
        { at_ 3 0 0 with cfgReads := 1, params := { base.params with cfgMaxReads := 2 } }, at_ 4 0 0, at_ 5 0 0, at_ 8 0 0,
        at_ 9 0 0, at_ 10 0 0, at_ 11 0 0, at_ 12 14 3, holding 0x11, holding 0x51, at_ 13 0 0, at_ 14 0 0, at_ 15 0 0],
      s.env.rst = false ∧ s.env.expDone = true ∧ answers (step (scripted s)) = true := by decide
/-- The three cases of CFGEXP and the two of RESOLVE are among them. -/
theorem witness_StepFollowsTheTransitionTable_guards :
    ({ at_ 3 0 0 with cfgPrevV := true } : State).cfgAgrees = true ∧ (at_ 3 0 0).cfgAgrees = false ∧
    (at_ 3 0 0).params.cfgMaxReads = 0 ∧ (at_ 12 14 3).isPressed 14 = some false ∧ (holding 0x11).isPressed 0 = some true ∧
    (holding 0x11).readKey 1 0 = some 0x11 := by decide
/-- Each register does change in its own step. -/
theorem witness_OnlyTheNamedStepsWrite :
    (look (step (scripted (holding 0x51))) State.fault = some 3) ∧
    (look (step (scripted (at_ 4 0 0))) State.key ≠ some base.key) ∧
    (look (step (scripted (holding 0x12))) (fun t => (t.x, t.y)) = some (1, 1)) ∧
    (look (step (scripted { at_ 9 0 0 with env := { base.env with now := 20000 } })) (fun t => (t.turboPhase, t.turboTs)) =
      some (true, 20000)) ∧
    (look (step (scripted { at_ 10 0 0 with env := { base.env with expData := 0xFE, now := 9 } })) (fun t => t.bankA.ts) = some 9) ∧
    (look (step (scripted { at_ 11 0 0 with env := { base.env with expData := 0xFE, now := 9 } })) (fun t => t.bankB.ts) = some 9) ∧
    (look (step (scripted { at_ 3 0 0 with cfgPrevV := true, cfgDir := 1 })) (fun t => (t.cfgIndex, t.cfgReads)) = some (2, 1)) ∧
    (look (step (scripted { at_ 2 0 0 with env := { base.env with cfgPin := 0 } })) State.cfgDir = some 7) ∧
    (look (step (scripted (at_ 0 0 0))) State.pinPullup = some 7) := by decide
theorem witness_OnlyResetLeavesHalt :
    (scripted (at_ 15 0 0)).pc = ⟨15, 0, 0⟩ ∧ (scripted (at_ 15 0 0)).env.rst = false ∧
    (∀ m ∈ (scripted (at_ 15 0 0)).env.script, m.rst = false) ∧ 1 ≤ (scripted (at_ 15 0 0)).env.script.length := by decide
theorem witness_ResetWinsOverEveryStep : ({ base with env := { base.env with rst := true } } : State).env.rst = true := rfl
theorem witness_ResetLeavesTheStatedValues : State.reset = State.resetWith Config.reference := rfl
theorem witness_MaptabAddressesAreInRange :
    15 < 16 ∧ 14 < Config.reference.nButtons ∧ 1 ≤ 3 ∧ 3 ≤ 3 ∧ maddr Config.reference.nButtons 15 14 3 = 719 ∧
    48 * Config.reference.nButtons ≤ 720 := by decide
theorem witness_MaptabReadsWhatWasWritten : Memory.wf refBtnKeys Config.reference.maptab = true := by decide

/-! ### States that meet the invariants -/

/-- In the walk, after one step right: button 0 held, KEY[1][0] = DPAD.R, at slot 2. -/
def walking : State := { holding 0x13 with pc := ⟨12, 0, 2⟩, x := 1 }

theorem sound_of_phase {s : State} (hp : s.params = Config.reference) (hl : s.pc.legal 15 = true) (hf : s.fault = 0)
    (hh : s.pc.phase ≠ 15) (hw : s.cfgWaited = false) : Sound s :=
  ⟨by rw [hp]; exact witness_LegalParams, by rw [hp]; exact hl,
    faultMarksHalt_iff.2 ⟨fun h => absurd hf h, fun h => absurd h hh⟩, fun h => absurd (hw.symm.trans h) Bool.false_ne_true⟩

theorem witness_StepKeepsPositionAndFault : Sound walking ∧ ∃ t, step (scripted walking) = .next t :=
  ⟨sound_of_phase rfl (by decide) rfl (by decide) rfl, next_of_answers (by decide)⟩
/-- CFGEXP with a silent transport, its Wait passed. -/
theorem witness_StepKeepsPositionAndFault_waited :
    Sound { silent with pc := Pc.start .cfgexp, cfgPrevV := true, cfgWaited := true } ∧
    answers (step (scripted { silent with pc := Pc.start .cfgexp, cfgPrevV := true, cfgWaited := true })) = true :=
  ⟨⟨witness_LegalParams, rfl, faultMarksHalt_iff.2 ⟨fun h => absurd rfl h, fun h => absurd h (by decide)⟩, fun _ => rfl⟩,
    by decide⟩
theorem witness_SoundStatesStepOn : Sound walking ∧ walking.key.length = 3 * walking.params.nButtons :=
  ⟨sound_of_phase rfl (by decide) rfl (by decide) rfl, by decide⟩
/-- A loaded machine: the state LOAD leaves. -/
theorem witness_StepKeepsTheActiveMapping :
    ∃ s, s.pc.loaded = true ∧ MappingLoaded s ∧ ∃ t, step s = .next t := by
  refine ⟨{ at_ 5 0 0 with key := ((configWords base.params 0).getD []) }, by decide, fun _ b slot hs hb => ?_,
    ⟨_, step_of_fetch (i := .begin) rfl (by decide)⟩⟩
  have key : ∀ (b : BitVec 4) (slot : BitVec 2), slot ≠ 0 → b.toNat < 15 →
      ((configWords base.params 0).getD [])[b.toNat * 3 + (slot.toNat - 1)]? =
        memReadMaptab base.params (maddr 15 0 b.toNat slot.toNat) := by decide
  have hc : maddr 15 0 b.toNat slot.toNat < 48 * base.params.nButtons :=
    maddr_lt (by omega) hb (by have := slot.isLt; omega)
  refine ⟨_, (readKey_eq hs hb).trans ((key b slot hs hb).trans (memReadMaptab_of_lt hc)), memReadMaptab_of_lt hc⟩
theorem witness_StepKeepsTheAccumulatedSum : Sound walking ∧ AccumulatorsSum walking ∧ ∃ t, step (scripted walking) = .next t := by
  refine ⟨sound_of_phase rfl (by decide) rfl (by decide) rfl, ⟨?_, fun _ => by decide, ?_, ?_⟩, next_of_answers (by decide)⟩
  · rintro (h | h | h) <;> exact absurd h (by decide)
  · intro h; exact absurd h (by decide)
  · intro h; exact absurd h (by decide)
theorem witness_StepKeepsTheEventGrammar :
    StreamFollowsGrammar { at_ 14 0 0 with events := [0x00, 0x20, 0x45, 0x62] } ∧
    answers (step (scripted { at_ 14 0 0 with events := [0x00, 0x20, 0x45, 0x62] })) = true := by
  unfold StreamFollowsGrammar
  decide
theorem witness_StepKeepsTheReportASet :
    ({ holding 0x02 with layer := { base.layer with keys := [1, 3] } } : State).layer.sorted ∧
    answers (step (scripted { holding 0x02 with layer := { base.layer with keys := [1, 3] } })) = true := by
  unfold Layer.sorted
  decide
theorem witness_StepKeepsOutOfHalt :
    CannotHalt { scripted base with params := paramsA } ∧ ∃ t, step { scripted base with params := paramsA } = .next t :=
  ⟨⟨witness_LegalParams_bankA, witness_WfMaptab.1, rfl, by decide, fun h => absurd h (by decide)⟩, next_of_answers (by decide)⟩
/-- At RELALL the accumulators' old values are forgotten: two different states. -/
theorem witness_NoStepReadsAnUnwrittenRegister :
    (at_ 8 0 0).forget = ({ at_ 8 0 0 with x := 5, y := -3 } : State).forget ∧ at_ 8 0 0 ≠ { at_ 8 0 0 with x := 5, y := -3 } := by
  decide

end Sys2Proof.Machine.Tests
end

/-! PROOF. What one step runs. -/

namespace Sys2Proof.Machine

/-- Settles O42: `step` runs the fetched instruction from the quiet state, and `andThen` moves the environment only behind an answer. -/
theorem stepRunsTheDecodedInstruction : Obligations.StepRunsTheDecodedInstruction := by
  intro s i hrst hdecode
  have hfetch : s.fetch = .ok i := hdecode
  have hquiet : { s with evtValid := false, expOp := .none } = s.quiet := rfl
  rw [step_of_fetch hrst hfetch, hquiet]
  cases exec i s.quiet with
  | next t => rfl
  | fault f => rfl
  | refused r => rfl

end Sys2Proof.Machine

/-! PROOF. What a step at a given position runs, where it goes, and what it writes, said once for the proofs of the state's rules. -/

namespace Sys2Proof.Machine

/-! ## Which instruction runs -/

/-- A step from `(phase, 0, 0)` has that phase's effect, then the environment moves. -/
theorem step_at_start {s t : State} {ph : Phase} {i : Instr} (hrst : s.env.rst = false) (hpc : s.pc = Pc.start ph)
    (hi : instrOfPhase ph = some i) (h : step s = .next t) : ∃ u, PhaseEffect s.quiet ph u ∧ t = u.advanceEnv := by
  rw [step_of_fetch hrst (fetch_start hpc hi)] at h
  obtain ⟨u, hu, rfl⟩ := andThen_eq_next.1 h
  exact ⟨u, phaseEffect_of_exec hi hu, rfl⟩

/-- A step from `(RESOLVE, b, slot)` runs RESOLVE on these operands, then the environment moves. -/
theorem step_at_resolve {s t : State} {b : BitVec 4} {slot : BitVec 2} (hrst : s.env.rst = false)
    (hpc : s.pc = Pc.resolveAt b slot) (h : step s = .next t) :
    ∃ u, execResolve b slot s.quiet = .next u ∧ t = u.advanceEnv := by
  rw [step_of_fetch hrst (fetch_resolve hpc)] at h
  exact andThen_eq_next.1 h

/-! ## Where a phase goes -/

/-- The position that a completed phase other than RESOLVE leaves (R17). RESOLVE has its successor from `nextButton` and `nextSlot`; it stays here. -/
def State.posAfter (s : State) : Phase → Pc
  | .pinmode => Pc.start .expinit
  | .expinit => Pc.start .cfgdir
  | .cfgdir => Pc.start .cfgexp
  | .cfgexp =>
    if s.cfgAgrees then Pc.start .load
    else if 0 < s.params.cfgMaxReads ∧ s.params.cfgMaxReads ≤ s.cfgReads + 1 then Pc.start .halt
    else Pc.start .cfgexp
  | .load => Pc.start .begin
  | .begin => Pc.start .relall
  | .relall => Pc.start .turbo
  | .turbo => Pc.start .sampleA
  | .sampleA => Pc.start .sampleB
  | .sampleB => Pc.resolveAt 0 1
  | .resolve => s.pc
  | .dpadout => Pc.start .commit
  | .commit => Pc.start .relall
  | .halt => Pc.start .halt

/-- A phase goes to its successor, or stays because the transport is silent (log 6). -/
theorem PhaseEffect.pc {s u : State} {ph : Phase} (h : PhaseEffect s ph u) :
    u.pc = s.posAfter ph ∨ (s.env.expDone = false ∧ u.pc = s.pc) := by
  cases ph with
  | expinit | sampleA | sampleB =>
    rcases h with ⟨hd, rfl⟩ | ⟨-, rfl⟩
    · exact .inr ⟨hd, rfl⟩
    · exact .inl rfl
  | cfgexp =>
    obtain ⟨v, rfl, ⟨hd, rfl⟩ | ⟨-, ha, rfl⟩ | ⟨-, ha, h0, hcap, rfl⟩ | ⟨-, ha, hcap, rfl⟩⟩ := h
    · exact .inr ⟨hd, rfl⟩
    · exact .inl (by simp [State.posAfter, ha])
    · exact .inl (by simp [State.posAfter, ha, h0, hcap])
    · have below : ¬(0 < s.params.cfgMaxReads ∧ s.params.cfgMaxReads ≤ s.cfgReads + 1) := by omega
      exact .inl (by simp [State.posAfter, ha, below])
  | resolve => exact h.elim
  | dpadout =>
    obtain ⟨d, -, -, rfl⟩ := h
    exact .inl rfl
  | pinmode | cfgdir | load | begin | relall | turbo | commit | halt =>
    cases h
    exact .inl rfl

/-! ## What a step writes -/

/-- `u` has the registers of `s` but for those that phase `ph` may write: R26's W column, with R12, R94, R159, R190 and R81. -/
structure WritesOnlyOwn (ph : Phase) (s u : State) : Prop where
  params : u.params = s.params
  fault : u.fault ≠ s.fault → ph = .cfgexp ∨ ph = .resolve
  key : u.key ≠ s.key → ph = .load
  xy : u.x ≠ s.x ∨ u.y ≠ s.y → ph = .relall ∨ ph = .resolve ∨ ph = .dpadout
  turboPhase : u.turboPhase ≠ s.turboPhase → ph = .turbo
  turboTs : u.turboTs ≠ s.turboTs → ph = .begin ∨ ph = .turbo
  bankA : u.bankA ≠ s.bankA → ph = .sampleA
  bankB : u.bankB ≠ s.bankB → ph = .sampleB
  cfgIndex : u.cfgIndex ≠ s.cfgIndex → ph = .cfgexp
  cfgDir : u.cfgDir ≠ s.cfgDir → ph = .cfgdir
  reading : u.cfgPrev ≠ s.cfgPrev ∨ u.cfgPrevV ≠ s.cfgPrevV ∨ u.cfgReads ≠ s.cfgReads ∨ u.cfgWaited ≠ s.cfgWaited →
    ph = .cfgexp
  pinPullup : u.pinPullup ≠ s.pinPullup → ph = .pinmode

/-- Each phase writes its own registers only. -/
theorem PhaseEffect.writes {s u : State} {ph : Phase} (h : PhaseEffect s ph u) : WritesOnlyOwn ph s u := by
  cases ph with
  | expinit | sampleA | sampleB => rcases h with ⟨-, rfl⟩ | ⟨-, rfl⟩ <;> constructor <;> simp
  | cfgexp =>
    obtain ⟨v, rfl, ⟨-, rfl⟩ | ⟨-, -, rfl⟩ | ⟨-, -, -, -, rfl⟩ | ⟨-, -, -, rfl⟩⟩ := h <;> constructor <;> simp
  | resolve => exact h.elim
  | dpadout =>
    obtain ⟨d, -, -, rfl⟩ := h
    constructor <;> simp
  | pinmode | cfgdir | load | begin | relall | turbo | commit | halt => cases h; constructor <;> simp

/-- RESOLVE writes x, y and, on an illegal word, FAULT (R120, R151, R170). -/
theorem execResolve_writes {s u : State} {b : BitVec 4} {slot : BitVec 2} (h : execResolve b slot s = .next u) :
    WritesOnlyOwn .resolve s u := by
  obtain ⟨-, -, ⟨-, rfl⟩ | ⟨-, w, -, ⟨-, -, rfl | ⟨k, -, rfl⟩⟩ | ⟨d, -, -, rfl⟩ | ⟨-, rfl⟩⟩⟩ := execResolve_cases h <;>
    constructor <;> simp

/-- Strobes and input ports are no registers, so what the instruction writes is what the step writes. -/
theorem WritesOnlyOwn.of_instr {s u : State} {ph : Phase} (h : WritesOnlyOwn ph s.quiet u) :
    WritesOnlyOwn ph s u.advanceEnv := { h with }

/-- While `rst` is low a step belongs to one phase and writes that phase's registers only. -/
theorem step_writes {s t : State} (hrst : s.env.rst = false) (h : step s = .next t) :
    ∃ ph, s.pc.phase = ph.code ∧ WritesOnlyOwn ph s t := by
  rcases step_effect h with ⟨hr, -⟩ | ⟨-, ⟨ph, u, hpc, hu, rfl⟩ | ⟨b, slot, u, hpc, hu, rfl⟩⟩
  · exact absurd (hrst.symm.trans hr) Bool.false_ne_true
  · exact ⟨ph, by rw [hpc]; rfl, hu.writes.of_instr⟩
  · exact ⟨.resolve, by rw [hpc]; rfl, (execResolve_writes hu).of_instr⟩

end Sys2Proof.Machine

/-! PROOF. Positions, the fault code and the mark of a Wait that has passed, kept by every step (R16, R17, R35 d). -/

namespace Sys2Proof.Machine

theorem Phase.code_eq_halt {ph : Phase} : ph.code = 15 ↔ ph = .halt := by cases ph <;> decide

theorem Pc.start_eq_cfgexp {ph : Phase} : Pc.start ph = Pc.start .cfgexp ↔ ph = .cfgexp := by cases ph <;> decide

/-- The position of a phase other than RESOLVE and HALT is legal and running. -/
theorem Pc.start_running {n : Nat} {ph : Phase} (hr : ph ≠ .resolve) (hh : ph ≠ .halt) :
    (Pc.start ph).legal n = true ∧ (Pc.start ph).phase ≠ 15 :=
  ⟨Pc.legal_start hr, mt Phase.code_eq_halt.1 hh⟩

/-- FAULT is 0 outside HALT. -/
theorem Sound.fault_eq_zero {s : State} (hs : Sound s) (hrun : s.pc.phase ≠ 15) : s.fault = 0 := by
  by_contra hf
  exact hrun ((faultMarksHalt_iff.1 hs.fault).1 hf)

/-- The mark of log 5 is not set outside CFGEXP. -/
theorem Sound.not_waited {s : State} (hs : Sound s) (hpc : s.pc ≠ Pc.start .cfgexp) : s.cfgWaited = false :=
  Bool.eq_false_iff.2 fun hw => hpc (hs.waited hw)

/-- What a machine that is not halted has to meet. -/
theorem sound_of_running {s : State} (hp : LegalParams s.params) (hpc : s.pc.legal s.params.nButtons = true)
    (hrun : s.pc.phase ≠ 15) (hf : s.fault = 0) (hw : s.cfgWaited = true → s.pc = Pc.start .cfgexp) : Sound s where
  params := hp
  pc := hpc
  fault := faultMarksHalt_iff.2 ⟨fun h => absurd hf h, fun h => absurd h hrun⟩
  waited := hw

/-- The fatal entry leaves a sound machine in HALT, its code in FAULT (R196). -/
theorem sound_fatal {s : State} (c : FatalCode) (hp : LegalParams s.params) (hw : s.cfgWaited = false) :
    Sound (s.fatal c) where
  params := hp
  pc := Pc.legal_start (by decide)
  fault := by
    have hcode : c.code ≠ 0 := by cases c <;> decide
    exact faultMarksHalt_iff.2 ⟨fun _ => rfl, fun _ => hcode⟩
  waited h := absurd (hw.symm.trans h) Bool.false_ne_true

/-- A reset with legal parameters leaves a sound machine. -/
theorem sound_resetWith {p : Params} (hp : LegalParams p) : Sound (State.resetWith p) :=
  sound_of_running hp rfl (show (0 : BitVec 4) ≠ 15 by decide) rfl fun h => absurd h Bool.false_ne_true

/-- Soundness reads four fields only; the strobes and the input ports are not among them. -/
theorem Sound.congr {s t : State} (hs : Sound s) (hp : t.params = s.params) (hpc : t.pc = s.pc) (hf : t.fault = s.fault)
    (hw : t.cfgWaited = s.cfgWaited) : Sound t where
  params := hp ▸ hs.params
  pc := by rw [hp, hpc]; exact hs.pc
  fault := by rw [faultMarksHalt_iff, hf, hpc]; exact faultMarksHalt_iff.1 hs.fault
  waited := by rw [hw, hpc]; exact hs.waited

/-- A move from outside CFGEXP and HALT to a running position leaves a sound machine, if FAULT and the mark stay. -/
theorem Sound.move {s u : State} (hs : Sound s) (hrun : s.pc.phase ≠ 15) (hcfg : s.pc ≠ Pc.start .cfgexp)
    (hp : u.params = s.params) (hf : u.fault = s.fault) (hw : u.cfgWaited = s.cfgWaited)
    (hpc : u.pc.legal s.params.nButtons = true ∧ u.pc.phase ≠ 15) : Sound u := by
  refine sound_of_running (hp ▸ hs.params) (hp ▸ hpc.1) hpc.2 (hf.trans (hs.fault_eq_zero hrun)) fun h => ?_
  rw [hw, hs.not_waited hcfg] at h
  cases h

/-- The phases whose one successor is fixed go to a legal running position. -/
theorem posAfter_legal (s : State) {ph : Phase} (hb : 0 < s.params.nButtons) (hr : ph ≠ .resolve) (hc : ph ≠ .cfgexp)
    (hh : ph ≠ .halt) : (s.posAfter ph).legal s.params.nButtons = true ∧ (s.posAfter ph).phase ≠ 15 := by
  cases ph with
  | resolve => exact absurd rfl hr
  | cfgexp => exact absurd rfl hc
  | halt => exact absurd rfl hh
  | sampleB => exact ⟨Pc.legal_resolveAt.2 ⟨by decide, hb⟩, show Phase.resolve.code ≠ 15 by decide⟩
  | pinmode | expinit | cfgdir | load | begin | relall | turbo | sampleA | dpadout | commit =>
    simp only [State.posAfter]
    exact Pc.start_running (by decide) (by decide)

/-- CFGEXP leaves a sound machine: the mark is set only where the position stays (log 5). -/
theorem Sound.cfgexp {s u : State} (hs : Sound s) (hpc : s.pc = Pc.start .cfgexp) (h : PhaseEffect s .cfgexp u) :
    Sound u := by
  have hrun : s.pc.phase ≠ 15 := by rw [hpc]; decide
  have hf := hs.fault_eq_zero hrun
  have unmarked : ∀ {p : Prop}, false = true → p := fun h => absurd h Bool.false_ne_true
  obtain ⟨v, rfl, ⟨-, rfl⟩ | ⟨-, -, rfl⟩ | ⟨-, -, -, -, rfl⟩ | ⟨-, -, -, rfl⟩⟩ := h
  · exact sound_of_running hs.params hs.pc hrun hf fun _ => hpc
  · exact sound_of_running hs.params (Pc.legal_start (by decide)) (show Phase.load.code ≠ 15 by decide) hf unmarked
  · exact sound_fatal .nonConverge hs.params rfl
  · exact sound_of_running hs.params (Pc.legal_start (by decide)) (show Phase.cfgexp.code ≠ 15 by decide) hf unmarked

/-- Every phase but RESOLVE leaves a sound machine. -/
theorem Sound.phaseEffect {s u : State} {ph : Phase} (hs : Sound s) (hpc : s.pc = Pc.start ph)
    (h : PhaseEffect s ph u) : Sound u := by
  by_cases hc : ph = .cfgexp
  · subst hc
    exact hs.cfgexp hpc h
  by_cases hh : ph = .halt
  · subst hh
    have e : u = s.setPc (Pc.start .halt) := h
    subst e
    exact hs.congr rfl hpc.symm rfl rfl
  have hr : ph ≠ .resolve := fun e => by subst e; exact h
  have hrun : s.pc.phase ≠ 15 := by rw [hpc]; exact mt Phase.code_eq_halt.1 hh
  have hcfg : s.pc ≠ Pc.start .cfgexp := by rw [hpc]; exact mt Pc.start_eq_cfgexp.1 hc
  have hw := h.writes
  refine hs.move hrun hcfg hw.params (not_imp_comm.1 hw.fault (by simp [hc, hr]))
    (not_imp_comm.1 (fun hne => hw.reading (.inr (.inr (.inr hne)))) hc) ?_
  rcases h.pc with e | ⟨-, e⟩
  · rw [e]
    exact posAfter_legal s (Nat.lt_of_lt_of_le (by decide) hs.params.buttons_ge) hr hc hh
  · rw [e]
    exact ⟨hs.pc, hrun⟩

/-- RESOLVE leaves a sound machine: the walk stays among the buttons that exist, or the fatal entry is taken (R170). -/
theorem Sound.execResolve {s u : State} {b : BitVec 4} {slot : BitVec 2} (hs : Sound s) (hpc : s.pc = Pc.resolveAt b slot)
    (h : execResolve b slot s = .next u) : Sound u := by
  have hrun : s.pc.phase ≠ 15 := by rw [hpc, Pc.resolveAt_phase]; decide
  have hcfg : s.pc ≠ Pc.start .cfgexp := fun e => absurd (congrArg Pc.phase (hpc.symm.trans e)) (by simp [Phase.code])
  obtain ⟨-, hb, ⟨-, rfl⟩ | ⟨-, w, -, ⟨-, -, rfl | ⟨k, -, rfl⟩⟩ | ⟨d, -, -, rfl⟩ | ⟨-, rfl⟩⟩⟩ := execResolve_cases h
  · exact hs.move hrun hcfg rfl rfl rfl (nextButton_legal _ b)
  · exact hs.move hrun hcfg rfl rfl rfl (nextSlot_legal slot hb)
  · exact hs.move hrun hcfg rfl rfl rfl (nextSlot_legal slot hb)
  · exact hs.move hrun hcfg rfl rfl rfl (nextSlot_legal slot hb)
  · exact sound_fatal .badSlot hs.params (hs.not_waited hcfg)

/-- Settles O53: a reset, a phase and RESOLVE each leave a sound machine, and neither the strobes nor the environment's move matter. -/
theorem stepKeepsPositionAndFault : Obligations.StepKeepsPositionAndFault := by
  intro s t hs h
  have hquiet : Sound s.quiet := hs.congr rfl rfl rfl rfl
  rcases step_effect h with ⟨-, rfl⟩ | ⟨-, ⟨ph, u, hpc, hu, rfl⟩ | ⟨b, slot, u, hpc, hu, rfl⟩⟩
  · exact (sound_resetWith hs.params).congr rfl rfl rfl rfl
  · exact (hquiet.phaseEffect hpc hu).congr rfl rfl rfl rfl
  · exact (hquiet.execResolve hpc hu).congr rfl rfl rfl rfl

end Sys2Proof.Machine

/-! PROOF. The Active Mapping, kept by every step (R35 a, R93, R94). -/

namespace Sys2Proof.Machine

/-- The slot registers' words depend on the parameters, the registers and the index only. -/
theorem KeysMatchConfig.congr {s t : State} (hm : KeysMatchConfig s) (hp : t.params = s.params) (hk : t.key = s.key)
    (hi : t.cfgIndex = s.cfgIndex) : KeysMatchConfig t := by
  intro b slot hs hb
  rw [hp] at hb
  obtain ⟨w, hr, hw⟩ := hm b slot hs hb
  exact ⟨w, (State.readKey_congr hp hk slot b).trans hr, by rw [hp, hi]; exact hw⟩

/-- A phase other than CFGEXP and LOAD writes neither the index nor a slot register (R94). -/
theorem KeysMatchConfig.of_writes {s u : State} {ph : Phase} (hm : KeysMatchConfig s) (hw : WritesOnlyOwn ph s u)
    (hcfg : ph ≠ .cfgexp) (hload : ph ≠ .load) : KeysMatchConfig u :=
  hm.congr hw.params (not_imp_comm.1 hw.key hload) (not_imp_comm.1 hw.cfgIndex hcfg)

/-- CFGEXP and LOAD are not among the phases after LOAD. -/
theorem Pc.start_loaded {ph : Phase} (h : (Pc.start ph).loaded = true) : ph ≠ .cfgexp ∧ ph ≠ .load := by
  constructor <;> rintro rfl <;> exact absurd h (by decide)

/-- LOAD puts in every slot register MAPTAB's word of the configuration the index names (R91, R93). -/
theorem PhaseEffect.load_keys {s u : State} (h : PhaseEffect s .load u) : KeysMatchConfig u := by
  cases h
  intro b slot hs hb
  have hslot := slot.isLt
  have hreg : b.toNat * 3 + (slot.toNat - 1) < 3 * s.params.nButtons := by dsimp only at hb; omega
  have haddr : maddr s.params.nButtons s.cfgIndex.toNat b.toNat slot.toNat < 48 * s.params.nButtons :=
    maddr_lt s.cfgIndex.isLt hb (by omega)
  obtain ⟨hdiv, hmod⟩ := keyIndex_div_mod (b := b) hs
  refine ⟨_, ?_, memReadMaptab_of_lt haddr⟩
  rw [readKey_eq hs hb, List.getElem?_map, List.getElem?_range hreg, Option.map_some, hdiv, hmod]

/-- Only LOAD, or a phase after it, leads to a phase after LOAD. -/
theorem PhaseEffect.loaded {s u : State} {ph : Phase} (h : PhaseEffect s ph u) (hpc : s.pc = Pc.start ph)
    (hl : u.pc.loaded = true) : s.pc.loaded = true ∨ ph = .load := by
  rcases h.pc with e | ⟨-, e⟩
  · rw [e] at hl
    cases ph with
    | pinmode | expinit | cfgdir | halt => exact absurd hl (by simp [State.posAfter, Pc.loaded, Phase.code])
    | cfgexp =>
      simp only [State.posAfter] at hl
      split at hl
      · exact absurd hl (by decide)
      · split at hl <;> exact absurd hl (by decide)
    | load => exact .inr rfl
    | begin | relall | turbo | sampleA | sampleB | resolve | dpadout | commit => exact .inl (by rw [hpc]; rfl)
  · exact .inl (e ▸ hl)

/-- Settles O55: LOAD fills the slot registers with the words of CFG_INDEX, and no phase after it writes a slot register or the index. -/
theorem stepKeepsTheActiveMapping : Obligations.StepKeepsTheActiveMapping := by
  intro s t hm h hl
  rcases step_effect h with ⟨-, rfl⟩ | ⟨-, ⟨ph, u, hpc, hu, rfl⟩ | ⟨b, slot, u, hpc, hu, rfl⟩⟩
  · exact absurd hl Bool.false_ne_true
  · rcases hu.loaded hpc hl with hs | rfl
    · obtain ⟨hcfg, hload⟩ := Pc.start_loaded (hpc ▸ hs)
      exact (hm hs).of_writes hu.writes.of_instr hcfg hload
    · exact hu.load_keys
  · have hs : s.pc.loaded = true := by rw [hpc]; rfl
    exact (hm hs).of_writes (execResolve_writes hu).of_instr (by decide) (by decide)

end Sys2Proof.Machine

/-! PROOF. The transition table, and which phase writes which register (R17, R26). -/

namespace Sys2Proof.Machine

/-- Settles O44: the decoder answers legal positions and RESOLVE's, and RESOLVE refuses its stray operands itself. -/
theorem strayPositionsAreRefused : Obligations.StrayPositionsAreRefused := by
  have resolve : ∀ (s : State) (b : BitVec 4) (slot : BitVec 2), slot = 0 ∨ s.params.nButtons ≤ b.toNat →
      exec (.resolve b slot) s = .refused .badPosition := fun s b slot h => if_pos h
  refine ⟨fun s hrst hpc => ?_, resolve⟩
  cases hf : s.fetch with
  | reject r => simp [step, hrst, hf]
  | ok i =>
    rw [step_of_fetch hrst hf]
    rcases fetch_cases hf with ⟨ph, e, hi⟩ | ⟨b, slot, e, rfl⟩
    · have hr : ph ≠ .resolve := fun e => by subst e; cases hi
      rw [e, Pc.legal_start hr] at hpc
      cases hpc
    · have stray : slot = 0 ∨ s.params.nButtons ≤ b.toNat := by
        rw [e, Bool.eq_false_iff, ne_eq, Pc.legal_resolveAt] at hpc
        by_contra hc
        rw [not_or] at hc
        exact hpc ⟨hc.1, Nat.lt_of_not_le hc.2⟩
      rw [resolve s.quiet b slot stray]
      rfl

/-- The strobes decide no position. -/
theorem State.posAfter_quiet (s : State) (ph : Phase) : s.quiet.posAfter ph = s.posAfter ph := by
  cases ph <;> rfl

/-- A step of an answering transport goes where its phase goes. -/
theorem step_pc_at_start {s t : State} {ph : Phase} {i : Instr} (hrst : s.env.rst = false) (hdone : s.env.expDone = true)
    (h : step s = .next t) (hi : instrOfPhase ph = some i) (hpc : s.pc = Pc.start ph) : t.pc = s.posAfter ph := by
  obtain ⟨u, hu, rfl⟩ := step_at_start hrst hpc hi h
  rcases hu.pc with e | ⟨hd, -⟩
  · rw [State.advanceEnv_pc, e, State.posAfter_quiet]
  · exact absurd (hdone.symm.trans hd) Bool.false_ne_true.symm

/-- The two ways RESOLVE moves past an unpressed button (R17). -/
theorem step_pc_unpressed {s t : State} {b : BitVec 4} {slot : BitVec 2} (hrst : s.env.rst = false)
    (h : step s = .next t) (hpc : s.pc = Pc.resolveAt b slot) (hb : s.isPressed b = some false) :
    t.pc = nextButton s.params.nButtons b := by
  obtain ⟨u, hu, rfl⟩ := step_at_resolve hrst hpc h
  have hq : s.quiet.isPressed b = some false := (State.isPressed_congr rfl rfl rfl b).trans hb
  obtain ⟨-, -, ⟨-, rfl⟩ | ⟨hp, -⟩⟩ := execResolve_cases hu
  · rfl
  · rw [hq] at hp
    cases hp

/-- RESOLVE's successor at a pressed button, by the legality of the slot's word (R17, R170). -/
theorem step_pc_pressed {s t : State} {b : BitVec 4} {slot : BitVec 2} {w : SlotWord} (hrst : s.env.rst = false)
    (h : step s = .next t) (hpc : s.pc = Pc.resolveAt b slot) (hb : s.isPressed b = some true)
    (hw : s.readKey slot b = some w) :
    t.pc = if legal s.params.nBtnKeys w = false then Pc.start .halt else nextSlot s.params.nButtons b slot := by
  obtain ⟨u, hu, rfl⟩ := step_at_resolve hrst hpc h
  have hq : s.quiet.isPressed b = some true := (State.isPressed_congr rfl rfl rfl b).trans hb
  have hr : s.quiet.readKey slot b = some w := (State.readKey_congr rfl rfl slot b).trans hw
  obtain ⟨-, -, ⟨hp, -⟩ | ⟨-, w', hw', hcase⟩⟩ := execResolve_cases hu
  · rw [hq] at hp
    cases hp
  · obtain rfl : w = w' := Option.some.inj (hr.symm.trans hw')
    rcases hcase with ⟨hl, -, rfl | ⟨k, -, rfl⟩⟩ | ⟨d, hl, -, rfl⟩ | ⟨hl, rfl⟩ <;> rw [State.quiet_params] at hl <;>
      simp [hl]

/-- Settles O45: the plain phases by `State.posAfter`, RESOLVE by its two lemmas above. -/
theorem stepFollowsTheTransitionTable : Obligations.StepFollowsTheTransitionTable := by
  intro s t hrst hdone h
  have row : ∀ {ph i}, instrOfPhase ph = some i → s.pc = Pc.start ph → t.pc = s.posAfter ph :=
    fun hi hpc => step_pc_at_start hrst hdone h hi hpc
  refine ⟨row (ph := .pinmode) rfl, row (ph := .expinit) rfl, row (ph := .cfgdir) rfl, ?agree, ?again, ?cap,
    row (ph := .load) rfl, row (ph := .begin) rfl, row (ph := .relall) rfl, row (ph := .turbo) rfl,
    row (ph := .sampleA) rfl, row (ph := .sampleB) rfl, ?unpressed, ?pressed, row (ph := .dpadout) rfl,
    row (ph := .commit) rfl, row (ph := .halt) rfl⟩
  case agree =>
    intro hpc ha
    rw [row (ph := .cfgexp) rfl hpc, State.posAfter, if_pos ha]
    rfl
  case again =>
    intro hpc ha hcap
    rw [row (ph := .cfgexp) rfl hpc, State.posAfter, if_neg (Bool.eq_false_iff.1 ha), if_neg (by omega)]
    rfl
  case cap =>
    intro hpc ha h0 hcap
    rw [row (ph := .cfgexp) rfl hpc, State.posAfter, if_neg (Bool.eq_false_iff.1 ha), if_pos ⟨h0, hcap⟩]
    rfl
  case unpressed => exact fun b slot hpc hb => step_pc_unpressed hrst h hpc hb
  case pressed => exact fun b slot w hpc hb hw => step_pc_pressed hrst h hpc hb hw

/-- Settles O46: a step writes the registers of its own phase only, and the phase code names that phase. -/
theorem onlyTheNamedStepsWrite : Obligations.OnlyTheNamedStepsWrite := by
  intro s t hrst h
  obtain ⟨ph, hpc, hw⟩ := step_writes hrst h
  rw [hpc]
  have code : ∀ {p : Prop} {q : Phase}, (p → ph = q) → p → ph.code = q.code := fun f hp => congrArg Phase.code (f hp)
  refine ⟨hw.params, fun hne => ?fault, code hw.key, fun hne => ?xy, code hw.turboPhase, fun hne => ?turboTs, code hw.bankA,
    code hw.bankB, code hw.cfgIndex, code hw.cfgDir, code hw.reading, code hw.pinPullup⟩
  case fault => rcases hw.fault hne with rfl | rfl <;> decide
  case xy => rcases hw.xy hne with rfl | rfl | rfl <;> decide
  case turboTs => rcases hw.turboTs hne with rfl | rfl <;> decide

end Sys2Proof.Machine

/-! PROOF. The report's key set, kept in rising order (R29, R176). -/

namespace Sys2Proof.Machine

/-- Every event keeps the keys in rising order: only PRESS adds one, and `insertKey` puts it in its place. -/
theorem Layer.sorted_take {l : Layer} (e : Event) (h : l.sorted) : (l.take e).sorted := by
  cases e with
  | press k => exact insertKey_sorted h
  | releaseAll => exact List.Pairwise.nil
  | begin | setDpad d | commit | diag c => exact h

/-- A phase leaves the layer's copy alone or has it take one event. -/
theorem PhaseEffect.layer {s u : State} {ph : Phase} (h : PhaseEffect s ph u) :
    u.layer = s.layer ∨ ∃ e, u.layer = s.layer.take e := by
  cases ph with
  | expinit | sampleA | sampleB => rcases h with ⟨-, rfl⟩ | ⟨-, rfl⟩ <;> exact .inl rfl
  | cfgexp =>
    obtain ⟨v, rfl, ⟨-, rfl⟩ | ⟨-, -, rfl⟩ | ⟨-, -, -, -, rfl⟩ | ⟨-, -, -, rfl⟩⟩ := h <;> exact .inl rfl
  | resolve => exact h.elim
  | begin => cases h; exact .inr ⟨.begin, rfl⟩
  | relall => cases h; exact .inr ⟨.releaseAll, rfl⟩
  | dpadout =>
    obtain ⟨d, -, -, rfl⟩ := h
    exact .inr ⟨.setDpad d, rfl⟩
  | commit => cases h; exact .inr ⟨.commit, rfl⟩
  | pinmode | cfgdir | load | turbo | halt => cases h; exact .inl rfl

/-- RESOLVE leaves the layer's copy alone or has it take one PRESS. -/
theorem execResolve_layer {s u : State} {b : BitVec 4} {slot : BitVec 2} (h : execResolve b slot s = .next u) :
    u.layer = s.layer ∨ ∃ e, u.layer = s.layer.take e := by
  obtain ⟨-, -, ⟨-, rfl⟩ | ⟨-, w, -, ⟨-, -, rfl | ⟨k, -, rfl⟩⟩ | ⟨d, -, -, rfl⟩ | ⟨-, rfl⟩⟩⟩ := execResolve_cases h
  · exact .inl rfl
  · exact .inl rfl
  · exact .inr ⟨.press k, rfl⟩
  · exact .inl rfl
  · exact .inl rfl

/-- Settles O58: a step has the layer take at most one event, and every event keeps the order. -/
theorem stepKeepsTheReportASet : Obligations.StepKeepsTheReportASet := by
  intro s t hs h
  have keep : ∀ u : State, (u.layer = s.layer ∨ ∃ e, u.layer = s.layer.take e) → u.layer.sorted := by
    rintro u (e | ⟨ev, e⟩)
    · rw [e]
      exact hs
    · rw [e]
      exact Layer.sorted_take ev hs
  rcases step_effect h with ⟨-, rfl⟩ | ⟨-, ⟨ph, u, -, hu, rfl⟩ | ⟨b, slot, u, -, hu, rfl⟩⟩
  · exact List.Pairwise.nil
  · exact keep u hu.layer
  · exact keep u (execResolve_layer (s := s.quiet) hu)

end Sys2Proof.Machine

/-! PROOF. The state after reset (R33): its stated values, and the invariants it meets. -/

namespace Sys2Proof.Machine

/-- Settles O49: the fields of `State.resetWith`, read off. -/
theorem resetLeavesTheStatedValues : Obligations.ResetLeavesTheStatedValues := by
  rintro p s rfl
  exact ⟨rfl, rfl, rfl, rfl, rfl, rfl, rfl, rfl, rfl, rfl, rfl, rfl, rfl⟩

/-- The reference values of R5 are within R5's own bounds. -/
theorem legalParams_reference : LegalParams Config.reference := by
  constructor <;> decide

/-- PINMODE is before LOAD, so no slot register is claimed to hold anything. -/
theorem mappingLoaded_resetWith (p : Params) : MappingLoaded (State.resetWith p) :=
  fun hl => absurd hl Bool.false_ne_true

/-- PINMODE is no phase of a cycle, so nothing is claimed of the accumulators. -/
theorem accumulatorsSum_resetWith (p : Params) : AccumulatorsSum (State.resetWith p) := by
  have hpc : (State.resetWith p).pc = Pc.start .pinmode := rfl
  constructor <;> intro h <;> rw [hpc] at h <;> exact absurd h (by decide)

/-- Settles O52: PINMODE is before every phase an invariant speaks of, the stream is empty and no key is pressed. -/
theorem resetMeetsTheInvariants : Obligations.ResetMeetsTheInvariants := by
  refine ⟨legalParams_reference, rfl, fun p hp => ⟨sound_resetWith hp, mappingLoaded_resetWith p,
    accumulatorsSum_resetWith p, ?grammar, List.Pairwise.nil, fun hwf huncapped => ?cannotHalt⟩⟩
  case grammar => exact (rfl : scanStream p.nBtnKeys [] = some StreamPos.fresh)
  case cannotHalt => exact ⟨hp, hwf, huncapped, show (0 : BitVec 4) ≠ 15 by decide, mappingLoaded_resetWith p⟩

end Sys2Proof.Machine

/-! PROOF. No step reads a register that holds no value written since reset (R33): forgetting such registers before a step changes no outcome. -/

namespace Sys2Proof.Machine

/-! ## Outcomes that agree -/

/-- Two outcomes agree when they are equal after forgetting. -/
theorem sameOutcome_iff {r q : Result} : SameOutcome r q ↔ andThen r State.forget = andThen q State.forget := by
  cases r <;> cases q <;> simp [SameOutcome, andThen]

theorem SameOutcome.refl (r : Result) : SameOutcome r r := sameOutcome_iff.2 rfl

theorem SameOutcome.symm {r q : Result} (h : SameOutcome r q) : SameOutcome q r :=
  sameOutcome_iff.2 (sameOutcome_iff.1 h).symm

theorem SameOutcome.trans {r q o : Result} (h : SameOutcome r q) (h' : SameOutcome q o) : SameOutcome r o :=
  sameOutcome_iff.2 ((sameOutcome_iff.1 h).trans (sameOutcome_iff.1 h'))

/-- The environment's move writes no register, so it keeps the agreement. -/
theorem SameOutcome.advanceEnv {r q : Result} (h : SameOutcome r q) :
    SameOutcome (andThen r State.advanceEnv) (andThen q State.advanceEnv) := by
  cases r with
  | next u =>
    cases q with
    | next v => exact congrArg State.advanceEnv (show u.forget = v.forget from h)
    | fault e => exact h
    | refused e => exact h
  | fault e => cases q <;> exact h
  | refused e => cases q <;> exact h

/-! ## What a position forgets -/

/-- From TURBO to COMMIT every register has been written: nothing is forgotten. -/
theorem State.forget_of_running {s : State} (h : 9 ≤ s.pc.phase.toNat) (h' : s.pc.phase.toNat < 15) : s.forget = s := by
  unfold State.forget
  simp only
  rw [if_neg (by omega), if_neg (by omega), if_neg (by omega), if_neg (by omega), if_neg (by omega), if_neg (by omega),
    if_neg (by omega)]

/-! ## CFGEXP -/

/-- An unwritten CFG_PREV is compared with nothing, so forgetting it changes no comparison (R84). -/
theorem forget_cfgAgrees {s : State} (hpc : s.pc = Pc.start .cfgexp) : s.forget.cfgAgrees = s.cfgAgrees := by
  have hreading : s.forget.cfgReading = s.cfgReading := rfl
  have hvalid : s.forget.cfgPrevV = s.cfgPrevV := rfl
  unfold State.cfgAgrees
  rw [hreading, hvalid]
  cases hv : s.cfgPrevV with
  | false => rfl
  | true => simp [State.forget, hpc, Phase.code, hv]

/-- A reading that agrees had a valid CFG_PREV, so all it keeps was written; one that does not writes CFG_PREV or halts (R84). -/
theorem cfgexpReading_forget {s : State} (hpc : s.pc = Pc.start .cfgexp) :
    s.cfgexpReading.forget = s.forget.cfgexpReading.forget := by
  have hparams : s.forget.params = s.params := rfl
  have hreads : s.forget.cfgReads = s.cfgReads := rfl
  simp only [State.cfgexpReading, forget_cfgAgrees hpc, hparams, hreads]
  split
  · rename_i ha
    have hv : s.cfgPrevV = true := (Bool.and_eq_true_iff.1 ha).1
    simp [State.forget, hpc, Phase.code, hv, State.cfgReading]
  · split
    · simp [State.forget, hpc, Phase.code, State.fatal, State.emit]
    · simp [State.forget, hpc, Phase.code, State.cfgReading]

/-- CFGEXP, answered or silent, does not read what is forgotten there. -/
theorem execCfgexp_forget {s : State} (hpc : s.pc = Pc.start .cfgexp) :
    SameOutcome (execCfgexp s) (execCfgexp s.forget) := by
  show State.forget _ = State.forget _
  have hask : (s.forget.wait s.forget.cfgWait).request (readOp s.forget.params.cfgExpBank) =
    ((s.wait s.cfgWait).request (readOp s.params.cfgExpBank)).forget := rfl
  have hdone : s.forget.env.expDone = s.env.expDone := rfl
  rw [hask, hdone]
  split
  · exact cfgexpReading_forget hpc
  · simp [State.forget, hpc, Phase.code]

/-! ## The phases and the step -/

/-- LOAD keeps CFG_INDEX and writes every slot register from it, and CFG_INDEX is not forgotten at LOAD (R91). -/
theorem execLoad_forget {s : State} (hpc : s.pc = Pc.start .load) : SameOutcome (execLoad s) (execLoad s.forget) := by
  rw [execLoad_eq, execLoad_eq]
  simp [SameOutcome, State.forget, hpc, Phase.code]

/-- No phase reads what is forgotten at its position: it writes such a register, or the next position forgets it too. -/
theorem exec_forget {s : State} {ph : Phase} {i : Instr} (hpc : s.pc = Pc.start ph) (hi : instrOfPhase ph = some i) :
    SameOutcome (exec i s) (exec i s.forget) := by
  cases ph with
  | pinmode => cases hi; simp [exec, execPinmode, SameOutcome, State.forget, hpc, Phase.code]
  | expinit =>
    cases hi
    cases hd : s.env.expDone <;>
      simp [exec, execExpinit, SameOutcome, State.forget, State.request, State.setPc, hpc, Phase.code, hd]
  | cfgdir => cases hi; simp [exec, execCfgdir, SameOutcome, State.forget, State.pinLevel, hpc, Phase.code]
  | cfgexp => cases hi; exact execCfgexp_forget hpc
  | load => cases hi; exact execLoad_forget hpc
  | begin => cases hi; simp [exec, execBegin, SameOutcome, State.forget, State.emit, hpc, Phase.code]
  | relall => cases hi; simp [exec, execRelall, SameOutcome, State.forget, State.emit, hpc, Phase.code]
  | halt => cases hi; simp [exec, execHalt, SameOutcome, State.forget, State.setPc, hpc, Phase.code]
  | resolve => cases hi
  | turbo | sampleA | sampleB | dpadout | commit =>
    rw [State.forget_of_running (by simp [hpc, Phase.code]) (by simp [hpc, Phase.code])]
    exact .refl _

/-- A step does not tell a state from the same state with its unwritten registers forgotten. -/
theorem step_forget (s : State) : SameOutcome (step s) (step s.forget) := by
  by_cases hrst : s.env.rst = true
  · have hreset : s.forget.applyReset = s.applyReset := rfl
    rw [step_of_rst hrst, step_of_rst (s := s.forget) hrst, hreset]
    exact .refl _
  rw [Bool.not_eq_true] at hrst
  have hfetch : s.forget.fetch = s.fetch := rfl
  cases hf : s.fetch with
  | reject r => simp [step, hf, hfetch, hrst, show s.forget.env.rst = false from hrst, SameOutcome]
  | ok i =>
    rcases fetch_cases hf with ⟨ph, hpc, hi⟩ | ⟨b, slot, hpc, -⟩
    · rw [step_of_fetch hrst hf, step_of_fetch (s := s.forget) hrst (hfetch.trans hf)]
      exact (exec_forget (s := s.quiet) hpc hi).advanceEnv
    · rw [State.forget_of_running (by simp [hpc]) (by simp [hpc])]
      exact .refl _

/-- Settles O60: two states that forget to the same state step as that state does. -/
theorem noStepReadsAnUnwrittenRegister : Obligations.NoStepReadsAnUnwrittenRegister := by
  intro s t h
  have hs := step_forget s
  rw [h] at hs
  exact hs.trans (step_forget t).symm

end Sys2Proof.Machine

/-! PROOF. MAPTAB as memory: its addresses are numbers in mixed radix, and a table reads back what was written to it. -/

namespace Sys2Proof.Machine

/-! ## Addresses (R40, R44) -/

/-- MAPTAB does not answer past its last word (R44; log 13). -/
theorem memReadMaptab_of_ge {p : Params} {addr : Nat} (h : 48 * p.nButtons ≤ addr) : memReadMaptab p addr = none := by
  simp [memReadMaptab, Nat.not_lt.2 h]

/-- The lowest digit of an address is the slot, the rest is the button's number in the table. -/
theorem maddr_divMod {n c b s : Nat} (h1 : 1 ≤ s) (h3 : s ≤ 3) :
    maddr n c b s / 3 = c * n + b ∧ maddr n c b s % 3 = s - 1 := by
  unfold maddr
  omega

/-- An address determines its configuration, button and slot: they are its digits. -/
theorem maddr_injective {n c b s c' b' s' : Nat} (hb : b < n) (h1 : 1 ≤ s) (h3 : s ≤ 3) (hb' : b' < n) (h1' : 1 ≤ s')
    (h3' : s' ≤ 3) (h : maddr n c b s = maddr n c' b' s') : c = c' ∧ b = b' ∧ s = s' := by
  obtain ⟨hdiv, hmod⟩ := maddr_divMod (n := n) (c := c) (b := b) h1 h3
  obtain ⟨hdiv', hmod'⟩ := maddr_divMod (n := n) (c := c') (b := b') h1' h3'
  rw [h] at hdiv hmod
  have row : n * c + b = n * c' + b' := by
    rw [Nat.mul_comm n c, Nat.mul_comm n c']
    exact hdiv.symm.trans hdiv'
  have button : b = b' := by
    simpa [Nat.mul_add_mod, Nat.mod_eq_of_lt, hb, hb'] using congrArg (· % n) row
  have config : c = c' := by
    simpa [Nat.mul_add_div (Nat.zero_lt_of_lt hb), Nat.div_eq_of_lt, hb, hb'] using congrArg (· / n) row
  exact ⟨config, button, by omega⟩

/-- Settles O50: addresses formed from indices in range are in the table and keep their digits, and the table ends at 48 * N_BUTTONS. -/
theorem maptabAddressesAreInRange : Obligations.MaptabAddressesAreInRange := by
  refine fun p => ⟨?answered, ?distinct, fun _ => memReadMaptab_of_ge⟩
  case answered =>
    intro c b s hc hb _ h3
    rw [memReadMaptab_of_lt (maddr_lt hc hb h3)]
    rfl
  case distinct => exact fun _ _ _ _ _ _ => maddr_injective

/-! ## Reading after a write (R48) -/

/-- The canonical form of a table with a first entry. -/
theorem Memory.wfFrom_cons {n lo a : Nat} {v : Byte} {m : Memory} :
    Memory.wfFrom n lo ((a, v) :: m) = true ↔ lo ≤ a ∧ v ≠ Memory.unlisted n ∧ Memory.wfFrom n (a + 1) m = true := by
  simp [Memory.wfFrom, and_assoc]

/-- Below the bound of a canonical table every address reads as unlisted. -/
theorem Memory.read_of_lt_bound {n lo a : Nat} {m : Memory} (hm : Memory.wfFrom n lo m = true) (h : a < lo) :
    Memory.read n m a = Memory.unlisted n := by
  induction m generalizing lo with
  | nil => rfl
  | cons c m ih =>
    obtain ⟨b, w⟩ := c
    obtain ⟨hlo, -, hm⟩ := Memory.wfFrom_cons.1 hm
    have hne : b ≠ a := by omega
    simp only [Memory.read, if_neg hne]
    exact ih hm (by omega)

/-- A byte put in front of a canonical table above its address is read back, whether it has to be listed or not. -/
theorem Memory.read_front {n addr : Nat} {m : Memory} (a : Nat) (v : Byte) (hm : Memory.wfFrom n (addr + 1) m = true) :
    Memory.read n (if v = Memory.unlisted n then m else (addr, v) :: m) a = if a = addr then v else Memory.read n m a := by
  by_cases ha : a = addr
  · subst ha
    by_cases hv : v = Memory.unlisted n
    · simp [hv, Memory.read_of_lt_bound hm (Nat.lt_succ_self a)]
    · simp [hv, Memory.read]
  · split <;> simp [Memory.read, Ne.symm ha]

/-- Reading after a write, above any bound: the byte is put in front of the first entry that is not below it, in place of one
at its own address. -/
theorem Memory.read_write {n lo : Nat} {m : Memory} (addr a : Nat) (v : Byte) (hm : Memory.wfFrom n lo m = true) :
    Memory.read n (Memory.write n m addr v) a = if a = addr then v else Memory.read n m a := by
  induction m generalizing lo with
  | nil => exact Memory.read_front a v rfl
  | cons c m ih =>
    obtain ⟨b, w⟩ := c
    obtain ⟨-, hw, htail⟩ := Memory.wfFrom_cons.1 hm
    rcases Nat.lt_trichotomy addr b with hlt | rfl | hgt
    · simp only [Memory.write, if_pos hlt]
      exact Memory.read_front a v (Memory.wfFrom_cons.2 ⟨hlt, hw, htail⟩)
    · simp only [Memory.write, if_neg (Nat.lt_irrefl addr), if_true]
      rw [Memory.read_front a v htail]
      by_cases ha : a = addr
      · simp [ha]
      · simp [Memory.read, ha, Ne.symm ha]
    · have hne : addr ≠ b := by omega
      simp only [Memory.write, if_neg (Nat.lt_asymm hgt), if_neg hne, Memory.read, ih htail]
      by_cases ha : a = addr
      · simp [ha, Ne.symm hne]
      · simp [ha]

/-- Settles O51: a table in canonical form is canonical above the bound 0. -/
theorem maptabReadsWhatWasWritten : Obligations.MaptabReadsWhatWasWritten :=
  fun _ _ addr a v hm => Memory.read_write addr a v hm

end Sys2Proof.Machine

/-! PROOF. The key field, the turbo tag and the rows of a slot word: what R60 to R66 give, said once for every N_BTN_KEYS. -/

namespace Sys2Proof.Machine

/-! ## The fields of a slot word (R60) -/

/-- KEY_W bits hold every key (R5). -/
theorem nKeys_le_two_pow_keyW (n : Nat) : nKeys n ≤ 2 ^ keyW n := by
  have h : nKeys n - 1 < 2 ^ keyW n := Nat.lt_log2_self
  omega

/-- The key field never exceeds the six bits of `KeyId` (log 19). -/
theorem two_pow_keyW_le {n : Nat} (hn : n ≤ 32) : 2 ^ keyW n ≤ 64 := by
  rw [keyW_eq hn]
  split <;> decide

theorem toNat_slotKey {n : Nat} (hn : n ≤ 32) (w : SlotWord) : (slotKey n w).toNat = w.toNat % 2 ^ keyW n := by
  have hlt : w.toNat % 2 ^ keyW n < 2 ^ keyW n := Nat.mod_lt _ (Nat.two_pow_pos _)
  have hw := two_pow_keyW_le hn
  rw [slotKey, BitVec.toNat_ofNat, Nat.mod_eq_of_lt (by omega)]

/-- A word below `2 ^ KEY_W` is its key and has no turbo tag. -/
theorem slot_fields_plain {n : Nat} {w : SlotWord} (hn : n ≤ 32) (h : w.toNat < 2 ^ keyW n) :
    slotT n w = false ∧ (slotKey n w).toNat = w.toNat :=
  ⟨Nat.testBit_lt_two_pow h, by rw [toNat_slotKey hn, Nat.mod_eq_of_lt h]⟩

/-- The turbo tag adds `2 ^ KEY_W` to the key. -/
theorem slot_fields_turbo {n key : Nat} {w : SlotWord} (hn : n ≤ 32) (h : w.toNat = 2 ^ keyW n + key)
    (hkey : key < 2 ^ keyW n) : slotT n w = true ∧ (slotKey n w).toNat = key := by
  constructor
  · rw [slotT, BitVec.getLsbD, h, Nat.testBit_two_pow_add_eq, Nat.testBit_lt_two_pow hkey]
    rfl
  · rw [toNat_slotKey hn, h, Nat.add_mod_left, Nat.mod_eq_of_lt hkey]

theorem decodeSlot_plain {n : Nat} {w : SlotWord} {k : KeyId} (hn : n ≤ 32) (hk : k.toNat < 2 ^ keyW n)
    (h : w.toNat = k.toNat) : decodeSlot n w = decodePlainKey n k := by
  obtain ⟨htag, hkey⟩ := slot_fields_plain (w := w) hn (by omega)
  rw [decodeSlot, htag, BitVec.eq_of_toNat_eq (hkey.trans h)]
  rfl

theorem decodeSlot_turbo {n : Nat} {w : SlotWord} {k : KeyId} (hn : n ≤ 32) (hk : k.toNat < 2 ^ keyW n)
    (h : w.toNat = 2 ^ keyW n + k.toNat) : decodeSlot n w = decodeTurboKey n k := by
  obtain ⟨htag, hkey⟩ := slot_fields_turbo hn h hk
  rw [decodeSlot, htag, BitVec.eq_of_toNat_eq hkey]
  rfl

/-! ## The keys past the regular buttons (R62, R64) -/

/-- The instructions of the 28 keys from N_BTN_KEYS on, in the order of their keys (R64). -/
def fixedKeys : List Instr :=
  [.dpadC, .dpadU, .dpadUR, .dpadR, .dpadDR, .dpadD, .dpadDL, .dpadL, .dpadUL,
   .lsC, .lsU, .lsUR, .lsR, .lsDR, .lsD, .lsDL, .lsL, .lsUL,
   .rsC, .rsU, .rsUR, .rsR, .rsDR, .rsD, .rsDL, .rsL, .rsUL, .noop]

/-- The decoder reads the key `N_BTN_KEYS + m` as entry `m`. -/
theorem decodePlainKey_fixed {n m : Nat} {k : KeyId} (hm : m < fixedKeys.length) (h : k.toNat = n + m) :
    decodePlainKey n k = fixedKeys[m] := by
  have hm28 : m < 28 := hm
  have hge : ¬k.toNat < n := by omega
  have hsub : k.toNat - n = m := by omega
  rw [decodePlainKey, if_neg hge, hsub]
  interval_cases m <;> rfl

/-- The encoder gives entry `m` the key `N_BTN_KEYS + m`. -/
theorem encode_fixed (n : Nat) {m : Nat} (hm : m < fixedKeys.length) : encode n fixedKeys[m] = plainWord (n + m) := by
  have hm28 : m < 28 := hm
  interval_cases m <;> rfl

/-! ## Regular buttons (R62, R72) -/

/-- A regular-button key keeps its five bits. -/
theorem toNat_setWidth_of_button {n : Nat} {k : KeyId} (hn : n ≤ 32) (h : k.toNat < n) :
    (k.setWidth 5).toNat = k.toNat := by
  rw [BitVec.toNat_setWidth, Nat.mod_eq_of_lt (by omega)]

theorem decodePlainKey_button {n : Nat} {k : KeyId} (h : k.toNat < n) : decodePlainKey n k = .btn (k.setWidth 5) :=
  if_pos h

theorem decodeTurboKey_button {n : Nat} {k : KeyId} (h : k.toNat < n) : decodeTurboKey n k = .btnT (k.setWidth 5) :=
  if_pos h

/-! ## Illegal keys with the turbo tag (R76; log 15) -/

/-- The row with mask 0x50 keeps key[5] and key[3:0]; its key[4] is 1. -/
theorem turboK4_fields : ∀ (k5 : BitVec 1) (lo : BitVec 4),
    (k5 ++ 1#1 ++ lo).getLsbD 4 = true ∧ (k5 ++ 1#1 ++ lo).extractLsb' 5 1 = k5 ∧
      (k5 ++ 1#1 ++ lo).extractLsb' 0 4 = lo := by decide

theorem turboK4_key : ∀ k : KeyId, k.getLsbD 4 = true → k.extractLsb' 5 1 ++ 1#1 ++ k.extractLsb' 0 4 = k := by decide

theorem decodeTurboKey_K4 {n : Nat} {k : KeyId} (h : n ≤ k.toNat) (h4 : k.getLsbD 4 = true) :
    decodeTurboKey n k = .illegalTurboK4 (k.extractLsb' 5 1) (k.extractLsb' 0 4) := by
  rw [decodeTurboKey, if_neg (Nat.not_lt.2 h), if_pos h4]

theorem decodeTurboKey_K5 {n : Nat} {k : KeyId} (h : n ≤ k.toNat) (h4 : k.getLsbD 4 = false) :
    decodeTurboKey n k = .illegalTurboK5 k := by
  rw [decodeTurboKey, if_neg (Nat.not_lt.2 h), if_neg (Bool.eq_false_iff.1 h4)]

end Sys2Proof.Machine

/-! PROOF. The decoder and the encoder undo each other (R60 to R72, R78). -/

namespace Sys2Proof.Machine

/-! ## Format S -/

/-- Decoding `encode n i` gives `i` back, and the word fits its format. -/
def RoundTrips (n : Nat) (i : Instr) : Prop := decode n (encode n i) = .ok i ∧ (encode n i).fits n = true

theorem roundTrips_of_plain {n : Nat} {i : Instr} (k : KeyId) (hn : n ≤ 32) (hk : k.toNat < 2 ^ keyW n)
    (henc : encode n i = plainWord k.toNat) (hdec : decodePlainKey n k = i) : RoundTrips n i := by
  have hw : (BitVec.ofNat 7 k.toNat).toNat = k.toNat := by
    have := two_pow_keyW_le hn
    rw [BitVec.toNat_ofNat, Nat.mod_eq_of_lt (by omega)]
  rw [RoundTrips, henc]
  constructor
  · exact congrArg Decoded.ok ((decodeSlot_plain hn hk hw).trans hdec)
  · have : 2 ^ (keyW n + 1) = 2 * 2 ^ keyW n := Nat.pow_succ'
    exact decide_eq_true (by omega)

theorem roundTrips_of_turbo {n : Nat} {i : Instr} (k : KeyId) (hn : n ≤ 32) (hk : k.toNat < 2 ^ keyW n)
    (henc : encode n i = turboWord n k.toNat) (hdec : decodeTurboKey n k = i) : RoundTrips n i := by
  have hw : (BitVec.ofNat 7 (2 ^ keyW n + k.toNat)).toNat = 2 ^ keyW n + k.toNat := by
    have := two_pow_keyW_le hn
    rw [BitVec.toNat_ofNat, Nat.mod_eq_of_lt (by omega)]
  rw [RoundTrips, henc]
  constructor
  · exact congrArg Decoded.ok ((decodeSlot_turbo hn hk hw).trans hdec)
  · have : 2 ^ (keyW n + 1) = 2 * 2 ^ keyW n := Nat.pow_succ'
    exact decide_eq_true (by omega)

/-- The instructions with one key each. -/
theorem roundTrips_fixed {n : Nat} {i : Instr} (hn : n ≤ 32) (hi : i ∈ fixedKeys) : RoundTrips n i := by
  obtain ⟨m, hm, rfl⟩ := List.mem_iff_getElem.1 hi
  have hm28 : m < 28 := hm
  have hfit : n + 28 ≤ 2 ^ keyW n := nKeys_le_two_pow_keyW n
  have hw := two_pow_keyW_le hn
  have hk : (BitVec.ofNat 6 (n + m)).toNat = n + m := by rw [BitVec.toNat_ofNat, Nat.mod_eq_of_lt (by omega)]
  refine roundTrips_of_plain (BitVec.ofNat 6 (n + m)) hn (by omega) ?_ (decodePlainKey_fixed hm hk)
  rw [encode_fixed n hm, hk]

/-- A regular-button key as a key identifier. -/
theorem button_keyId {n : Nat} {k : KeyConst} (h : k.toNat < n) :
    (k.setWidth 6).toNat = k.toNat ∧ (k.setWidth 6).toNat < n ∧ (k.setWidth 6).toNat < 2 ^ keyW n ∧
      (k.setWidth 6).setWidth 5 = k := by
  have hw : (k.setWidth 6).toNat = k.toNat := BitVec.toNat_setWidth_of_le (by decide)
  have hfit : n + 28 ≤ 2 ^ keyW n := nKeys_le_two_pow_keyW n
  exact ⟨hw, by omega, by omega, by simp⟩

theorem roundTrips_btn {n : Nat} {k : KeyConst} (hn : n ≤ 32) (h : k.toNat < n) : RoundTrips n (.btn k) := by
  obtain ⟨hw, hlt, hfit, hback⟩ := button_keyId h
  refine roundTrips_of_plain (k.setWidth 6) hn hfit (by rw [hw]; rfl) ?_
  rw [decodePlainKey_button hlt, hback]

theorem roundTrips_btnT {n : Nat} {k : KeyConst} (hn : n ≤ 32) (h : k.toNat < n) : RoundTrips n (.btnT k) := by
  obtain ⟨hw, hlt, hfit, hback⟩ := button_keyId h
  refine roundTrips_of_turbo (k.setWidth 6) hn hfit (by rw [hw]; rfl) ?_
  rw [decodeTurboKey_button hlt, hback]

/-! ## Formats Q and E -/

/-- The word of RESOLVE is its position (R70). -/
theorem roundTrips_resolve (n : Nat) (b : BitVec 4) (slot : BitVec 2) : RoundTrips n (.resolve b slot) :=
  ⟨decode_resolveAt b slot, rfl⟩

/-- The event operations with an argument are read back from the two fields of their word (R72). -/
theorem decodeEvent_withArg (arg : BitVec 5) :
    decodeEvent (2#3 ++ arg) = .ok (.evPress arg) ∧ decodeEvent (3#3 ++ arg) = .ok (.evSetDpad arg) ∧
      decodeEvent (7#3 ++ arg) = .ok (.evDiag arg) := by
  refine ⟨?_, ?_, ?_⟩ <;> rw [decodeEvent, BitVec.extractLsb'_append_eq_left, BitVec.extractLsb'_append_eq_right] <;> rfl

/-- Settles O1: each well-formed instruction goes back through its own row of the tables. -/
theorem decodingUndoesEncoding : Obligations.DecodingUndoesEncoding := by
  intro n i hn hwf
  change RoundTrips n i
  cases i with
  | btn k => exact roundTrips_btn hn (of_decide_eq_true hwf)
  | btnT k => exact roundTrips_btnT hn (of_decide_eq_true hwf)
  | noop | dpadC | dpadU | dpadUR | dpadR | dpadDR | dpadD | dpadDL | dpadL | dpadUL
  | lsC | lsU | lsUR | lsR | lsDR | lsD | lsDL | lsL | lsUL
  | rsC | rsU | rsUR | rsR | rsDR | rsD | rsDL | rsL | rsUL =>
    exact roundTrips_fixed hn (by simp [fixedKeys])
  | illegalKey44 key =>
    simp only [Instr.wf, Bool.and_eq_true, decide_eq_true_eq] at hwf
    obtain ⟨⟨hpast, hbelow⟩, hfit⟩ := hwf
    exact roundTrips_of_plain key hn hfit rfl (by rw [decodePlainKey_of_ge hpast, if_pos hbelow])
  | illegalKey48 key =>
    simp only [Instr.wf, Bool.and_eq_true, decide_eq_true_eq] at hwf
    obtain ⟨⟨hpast, habove⟩, hfit⟩ := hwf
    exact roundTrips_of_plain key hn hfit rfl (by rw [decodePlainKey_of_ge hpast, if_neg (Nat.not_lt.2 habove)])
  | illegalTurboK4 k5 lo =>
    simp only [Instr.wf, Bool.and_eq_true, decide_eq_true_eq] at hwf
    obtain ⟨hpast, hfit⟩ := hwf
    obtain ⟨h4, h5, hlo⟩ := turboK4_fields k5 lo
    exact roundTrips_of_turbo (k5 ++ 1#1 ++ lo) hn hfit rfl (by rw [decodeTurboKey_K4 hpast h4, h5, hlo])
  | illegalTurboK5 key =>
    simp only [Instr.wf, Bool.and_eq_true, Bool.not_eq_true', decide_eq_true_eq] at hwf
    obtain ⟨⟨hpast, h4⟩, hfit⟩ := hwf
    exact roundTrips_of_turbo key hn hfit rfl (decodeTurboKey_K5 hpast h4)
  | resolve b slot => exact roundTrips_resolve n b slot
  | pinmode | expinit | cfgdir | cfgexp | load | begin | relall | turbo | sampleA | sampleB | dpadout | commit | halt
  | evBegin | evReleaseAll | evCommit => exact ⟨rfl, rfl⟩
  | evPress arg => exact ⟨(decodeEvent_withArg arg).1, rfl⟩
  | evSetDpad arg => exact ⟨(decodeEvent_withArg arg).2.1, rfl⟩
  | evDiag arg => exact ⟨(decodeEvent_withArg arg).2.2, rfl⟩

/-- A key without the turbo tag is encoded as it was decoded, legal or not. -/
theorem encode_decodePlainKey {n : Nat} (hn : n ≤ 32) (k : KeyId) : encode n (decodePlainKey n k) = plainWord k.toNat := by
  by_cases hbtn : k.toNat < n
  · rw [decodePlainKey_button hbtn, encode, toNat_setWidth_of_button hn hbtn]
  by_cases hkey : k.toNat < nKeys n
  · obtain ⟨m, hm⟩ : ∃ m, k.toNat = n + m := ⟨k.toNat - n, by omega⟩
    have hm28 : m < fixedKeys.length := by
      rw [hm, nKeys] at hkey
      exact Nat.lt_of_add_lt_add_left hkey
    rw [decodePlainKey_fixed hm28 hm, encode_fixed n hm28, hm]
  · rw [decodePlainKey_of_ge (Nat.not_lt.1 hkey)]
    split <;> rfl

/-- A key with the turbo tag is encoded as it was decoded, legal or not. -/
theorem encode_decodeTurboKey {n : Nat} (hn : n ≤ 32) (k : KeyId) :
    encode n (decodeTurboKey n k) = turboWord n k.toNat := by
  by_cases hbtn : k.toNat < n
  · rw [decodeTurboKey_button hbtn, encode, toNat_setWidth_of_button hn hbtn]
  cases h4 : k.getLsbD 4 with
  | true => rw [decodeTurboKey_K4 (Nat.not_lt.1 hbtn) h4, encode, turboK4_key k h4]
  | false => rw [decodeTurboKey_K5 (Nat.not_lt.1 hbtn) h4, encode]

/-- Every slot word that fits is the encoding of what it decodes to. -/
theorem encode_decodeSlot {n : Nat} {w : SlotWord} (hn : n ≤ 32) (hfits : w.toNat < 2 ^ (keyW n + 1)) :
    encode n (decodeSlot n w) = .slot w := by
  have hw := two_pow_keyW_le hn
  rw [Nat.pow_succ'] at hfits
  by_cases hlt : w.toNat < 2 ^ keyW n
  · have hk : (BitVec.ofNat 6 w.toNat).toNat = w.toNat := by rw [BitVec.toNat_ofNat, Nat.mod_eq_of_lt (by omega)]
    rw [decodeSlot_plain hn (by omega) hk.symm, encode_decodePlainKey hn, hk, plainWord, BitVec.ofNat_toNat,
      BitVec.setWidth_eq]
  · have hk : (BitVec.ofNat 6 (w.toNat - 2 ^ keyW n)).toNat = w.toNat - 2 ^ keyW n := by
      rw [BitVec.toNat_ofNat, Nat.mod_eq_of_lt (by omega)]
    have hsum : 2 ^ keyW n + (w.toNat - 2 ^ keyW n) = w.toNat := by omega
    rw [decodeSlot_turbo (k := BitVec.ofNat 6 (w.toNat - 2 ^ keyW n)) hn (by omega) (by omega),
      encode_decodeTurboKey hn, hk, turboWord, hsum, BitVec.ofNat_toNat, BitVec.setWidth_eq]

/-- The fields of a position make it up (R16). -/
theorem Pc.word_ofWord (w : PosWord) : (Pc.ofWord w).word = w := by
  change w.extractLsb' 6 4 ++ w.extractLsb' 2 4 ++ w.extractLsb' 0 2 = w
  rw [BitVec.extractLsb'_append_extractLsb'_eq_extractLsb' (start₂ := 6) (start₁ := 2) rfl]
  exact BitVec.extractLsb'_append_extractLsb'

/-- A position word that decodes is `(phase, 0, 0)` or a RESOLVE position, as `fetch_cases` says of the state that stands there (R70). -/
theorem encode_decodePos {n : Nat} {w : PosWord} {i : Instr} (h : decodePos w = .ok i) : encode n i = .pos w := by
  have hfetch : (State.reset.setPc (Pc.ofWord w)).fetch = .ok i := by
    rw [State.fetch, State.setPc_pc, Pc.word_ofWord]
    exact h
  rw [← Pc.word_ofWord w]
  rcases fetch_cases hfetch with ⟨ph, hpc, hi⟩ | ⟨b, slot, hpc, rfl⟩
  · rw [State.setPc_pc] at hpc
    rw [hpc]
    cases ph <;> cases hi <;> rfl
  · rw [State.setPc_pc] at hpc
    rw [hpc]
    rfl

/-- An event word is its operation and its argument, and the encoder puts both back (R72). -/
theorem encode_decodeEvent {n : Nat} {w : EventWord} {i : Instr} (h : decodeEvent w = .ok i) :
    encode n i = .event w := by
  have hw : w.extractLsb' 5 3 ++ w.extractLsb' 0 5 = w := BitVec.extractLsb'_append_extractLsb'
  simp only [decodeEvent] at h
  generalize w.extractLsb' 5 3 = op, w.extractLsb' 0 5 = arg at h hw
  subst hw
  have withArg : ∀ (v : BitVec 3) (j : Instr), encode n j = .event (v ++ arg) → op.toNat = v.toNat →
      Decoded.ok j = .ok i → encode n i = .event (op ++ arg) := by
    intro v j henc hop hj
    cases hj
    rw [henc, BitVec.eq_of_toNat_eq hop]
  have plain : ∀ (v : BitVec 3) (j : Instr), encode n j = .event (v ++ 0#5) → op.toNat = v.toNat →
      (if arg = 0 then Decoded.ok j else .reject .strayEventArg) = .ok i → encode n i = .event (op ++ arg) := by
    intro v j henc hop hj
    split at hj
    · rename_i harg
      exact withArg v j (henc.trans (by rw [harg]; rfl)) hop hj
    · cases hj
  split at h
  · exact plain 0 .evBegin rfl ‹_› h
  · exact plain 1 .evReleaseAll rfl ‹_› h
  · exact withArg 2 (.evPress arg) rfl ‹_› h
  · exact withArg 3 (.evSetDpad arg) rfl ‹_› h
  · exact plain 4 .evCommit rfl ‹_› h
  · exact withArg 7 (.evDiag arg) rfl ‹_› h
  · cases h

/-- Settles O2: whatever a word decodes to, well formed or not, is encoded as that word. -/
theorem encodingUndoesDecoding : Obligations.EncodingUndoesDecoding := by
  intro n c i hn hfits hdec _
  cases c with
  | slot w =>
    cases hdec
    exact encode_decodeSlot hn (of_decide_eq_true hfits)
  | pos w => exact encode_decodePos hdec
  | event w => exact encode_decodeEvent hdec

end Sys2Proof.Machine

/-! PROOF. The slot words of the reference table, and the classes of the Key Model (R62 to R66). -/

namespace Sys2Proof.Machine

/-! ## The key ranges (R62) -/

/-- A class of nine keys, with its last key written out. -/
theorem decide_nineKeys (base k : Nat) :
    (decide (base ≤ k) && decide (k < base + 9)) = decide (base ≤ k ∧ k ≤ base + 8) := by
  rw [Bool.eq_iff_iff]
  simp only [Bool.and_eq_true, decide_eq_true_eq]
  omega

/-! ## The reference table (R64 to R66) -/

/-- At the reference a word below 0x40 is its key, with no turbo tag (R60). -/
theorem slot_fields_ref_plain {w : SlotWord} (h : w.toNat < 64) :
    slotT refBtnKeys w = false ∧ (slotKey refBtnKeys w).toNat = w.toNat :=
  slot_fields_plain (by decide) h

/-- At the reference the turbo tag is worth 0x40 (R60). -/
theorem slot_fields_ref_turbo {w : SlotWord} (h : 64 ≤ w.toNat) :
    slotT refBtnKeys w = true ∧ (slotKey refBtnKeys w).toNat = w.toNat - 64 := by
  have hw := w.isLt
  have hkey : w.toNat - 64 < 2 ^ keyW refBtnKeys := show w.toNat - 64 < 64 by omega
  exact slot_fields_turbo (by decide) (show w.toNat = 64 + (w.toNat - 64) by omega) hkey

/-- Without the turbo tag the words below 44 are legal (R65). -/
theorem legal_ref_plain {w : SlotWord} (h : w.toNat < 64) : legal refBtnKeys w = decide (w.toNat < 44) := by
  obtain ⟨htag, hkey⟩ := slot_fields_ref_plain h
  rw [legal, htag, hkey]
  exact Bool.and_true _

/-- With the turbo tag only the regular buttons are legal (R65). -/
theorem legal_ref_turbo {w : SlotWord} (h : 64 ≤ w.toNat) : legal refBtnKeys w = decide (w.toNat < 80) := by
  obtain ⟨htag, hkey⟩ := slot_fields_ref_turbo h
  rw [legal, isRegularButton, htag, hkey, nKeys, refBtnKeys, Bool.eq_iff_iff]
  simp only [Bool.not_true, Bool.false_or, Bool.and_eq_true, decide_eq_true_eq]
  omega

/-- Settles O3: below 0x40 the word is its key; from 0x40 on the key is what is left without the tag. -/
theorem slotWordsDivideAsTabled : Obligations.SlotWordsDivideAsTabled := by
  intro w
  have legalBelow : w.toNat < 44 → legal refBtnKeys w = true := by
    intro h
    rw [legal_ref_plain (by omega)]
    exact decide_eq_true h
  have nineKeys : ∀ base, base ≤ w.toNat → w.toNat ≤ base + 8 → w.toNat < 64 →
      (decide (base ≤ (slotKey refBtnKeys w).toNat) && decide ((slotKey refBtnKeys w).toNat < base + 9)) = true := by
    intro base hlo hhi h64
    rw [decide_nineKeys, (slot_fields_ref_plain h64).2]
    exact decide_eq_true ⟨hlo, hhi⟩
  refine ⟨?btn, ?btnT, ?dpad, ?ls, ?rs, ?noop, ?illegal, ?illegalTurbo⟩
  case btn =>
    intro h
    obtain ⟨htag, hkey⟩ := slot_fields_ref_plain (w := w) (by omega)
    have hbtn : (slotKey refBtnKeys w).toNat < refBtnKeys := show _ < 16 by omega
    have harg : (slotKey refBtnKeys w).setWidth 5 = w.setWidth 5 :=
      BitVec.eq_of_toNat_eq (by rw [BitVec.toNat_setWidth, BitVec.toNat_setWidth, hkey])
    refine ⟨?_, legalBelow (by omega)⟩
    rw [decodeSlot, htag, ← harg]
    exact decodePlainKey_button hbtn
  case btnT =>
    intro h64 h
    obtain ⟨htag, hkey⟩ := slot_fields_ref_turbo h64
    have hbtn : (slotKey refBtnKeys w).toNat < refBtnKeys := show _ < 16 by omega
    have hsub : (w - 0x40).toNat = w.toNat - 64 := by bv_omega
    have harg : (slotKey refBtnKeys w).setWidth 5 = (w - 0x40).setWidth 5 :=
      BitVec.eq_of_toNat_eq (by rw [BitVec.toNat_setWidth, BitVec.toNat_setWidth, hkey, hsub])
    refine ⟨?_, by rw [legal_ref_turbo h64]; exact decide_eq_true (by omega)⟩
    rw [decodeSlot, htag, ← harg]
    exact decodeTurboKey_button hbtn
  case dpad => exact fun hlo hhi => ⟨nineKeys 16 hlo hhi (by omega), legalBelow (by omega)⟩
  case ls => exact fun hlo hhi => ⟨nineKeys 25 hlo hhi (by omega), legalBelow (by omega)⟩
  case rs => exact fun hlo hhi => ⟨nineKeys 34 hlo hhi (by omega), legalBelow (by omega)⟩
  case noop =>
    rintro rfl
    exact ⟨rfl, rfl⟩
  case illegal =>
    intro hlo hhi
    rw [legal_ref_plain (by omega)]
    exact decide_eq_false (by omega)
  case illegalTurbo =>
    intro hlo
    rw [legal_ref_turbo (by omega)]
    exact decide_eq_false (by omega)

/-- Settles O4: closed words, evaluated by the decoder. -/
theorem tabledWordsDecode : Obligations.TabledWordsDecode := by
  unfold Obligations.TabledWordsDecode
  decide

/-! ## The Key Model (R62, R63) -/

/-- Settles O5: the five ranges are disjoint and fill the numbers below N_KEYS. -/
theorem keyClassesPartition : Obligations.KeyClassesPartition := by
  intro n k
  have hbtn : isRegularButton n k = decide (k.toNat < n) := rfl
  have hdpad : isDPadDirection n k = decide (n ≤ k.toNat ∧ k.toNat ≤ n + 8) := decide_nineKeys n k.toNat
  have hls : isLeftStick n k = decide (n + 9 ≤ k.toNat ∧ k.toNat ≤ n + 17) := decide_nineKeys (n + 9) k.toNat
  have hrs : isRightStick n k = decide (n + 18 ≤ k.toNat ∧ k.toNat ≤ n + 26) := decide_nineKeys (n + 18) k.toNat
  have hnoop : isNoop n k = decide (k.toNat = n + 27) := rfl
  refine ⟨hbtn, hdpad, hls, hrs, hnoop, ?count⟩
  rw [hbtn, hdpad, hls, hrs, hnoop]
  simp only [List.count_cons, List.count_nil, beq_true, decide_eq_true_eq]
  split_ifs <;> omega

end Sys2Proof.Machine

/-! PROOF. The event words as instructions (R72, R176). -/

namespace Sys2Proof.Machine

/-- The directions are the codes 0 to 8 (R64). -/
theorem Dir.ofOffset_isSome : ∀ arg : BitVec 5, (Dir.ofOffset arg).isSome = decide (arg.toNat < 9) := by decide

/-- A direction read from an argument has that code. -/
theorem Dir.offset_of_ofOffset : ∀ arg : BitVec 5, ∀ d ∈ Dir.ofOffset arg, d.offset.setWidth 5 = arg := by decide

/-- The fault codes are 1 to 3 (R72). -/
theorem FatalCode.ofArg_isSome : ∀ arg : BitVec 5,
    (FatalCode.ofArg arg).isSome = decide (0 < arg.toNat ∧ arg.toNat < 4) := by decide

/-- A fault code read from an argument is that argument. -/
theorem FatalCode.code_of_ofArg : ∀ arg : BitVec 5, ∀ c ∈ FatalCode.ofArg arg, c.code.setWidth 5 = arg := by decide

/-- The argument is added below the operation (R72). -/
theorem eventWord_eq_add : ∀ (op : BitVec 3) (arg : BitVec 5), (op ++ arg : EventWord) = (op ++ 0#5) + arg.setWidth 8 := by
  decide

/-! ## What each argument does -/

theorem exec_evPress {s : State} {arg : KeyConst} (h : arg.toNat < s.params.nBtnKeys) :
    exec (.evPress arg) s = .next (s.emit (.press arg)) := if_pos h

theorem exec_evPress_refused {s : State} {arg : KeyConst} (h : s.params.nBtnKeys ≤ arg.toNat) :
    exec (.evPress arg) s = .refused .reservedEventArg := if_neg (Nat.not_lt.2 h)

/-- SET_DPAD with a direction code emits the direction of that code. -/
theorem exec_evSetDpad (s : State) {arg : BitVec 5} (h : arg.toNat < 9) :
    ∃ d : Dir, d.offset.setWidth 5 = arg ∧ exec (.evSetDpad arg) s = .next (s.emit (.setDpad d)) := by
  have hsome : (Dir.ofOffset arg).isSome := by rw [Dir.ofOffset_isSome, decide_eq_true h]
  obtain ⟨d, hd⟩ := Option.isSome_iff_exists.1 hsome
  refine ⟨d, Dir.offset_of_ofOffset arg d hd, ?_⟩
  simp [exec, execEvSetDpad, hd]

theorem exec_evSetDpad_refused (s : State) {arg : BitVec 5} (h : 9 ≤ arg.toNat) :
    exec (.evSetDpad arg) s = .refused .reservedEventArg := by
  have hnone : Dir.ofOffset arg = none := by
    rw [← Option.isNone_iff_eq_none, ← Option.not_isSome, Dir.ofOffset_isSome]
    simp [h]
  simp [exec, execEvSetDpad, hnone]

/-- DIAG with a fault code emits that code. -/
theorem exec_evDiag (s : State) {arg : BitVec 5} (h0 : 0 < arg.toNat) (h4 : arg.toNat < 4) :
    ∃ c : FatalCode, c.code.setWidth 5 = arg ∧ exec (.evDiag arg) s = .next (s.emit (.diag c)) := by
  have hsome : (FatalCode.ofArg arg).isSome := by rw [FatalCode.ofArg_isSome, decide_eq_true ⟨h0, h4⟩]
  obtain ⟨c, hc⟩ := Option.isSome_iff_exists.1 hsome
  refine ⟨c, FatalCode.code_of_ofArg arg c hc, ?_⟩
  simp [exec, execEvDiag, hc]

theorem exec_evDiag_refused (s : State) {arg : BitVec 5} (h : arg.toNat = 0 ∨ 4 ≤ arg.toNat) :
    exec (.evDiag arg) s = .refused .reservedEventArg := by
  have hnone : FatalCode.ofArg arg = none := by
    rw [← Option.isNone_iff_eq_none, ← Option.not_isSome, FatalCode.ofArg_isSome, decide_eq_false (by omega)]
    rfl
  simp [exec, execEvDiag, hnone]

/-- Settles O40: each event word is one `State.emit`, and the layer takes it by `Layer.take`. -/
theorem eventWordsReachTheLayer : Obligations.EventWordsReachTheLayer := by
  intro s arg
  refine ⟨rfl, rfl, rfl, ?press, ?setDpad, ?diag⟩
  case press =>
    intro h
    refine ⟨s.emit (.press arg), exec_evPress h, fun j => mem_insertKey, rfl, ?_⟩
    have hword : (Event.press arg).word = 0x40 + arg.setWidth 8 := eventWord_eq_add 2 arg
    rw [← hword]
    rfl
  case setDpad =>
    intro h
    obtain ⟨d, hd, hexec⟩ := exec_evSetDpad s h
    have hcode : d.offset.toNat = arg.toNat := by
      rw [← hd, BitVec.toNat_setWidth_of_le (by decide)]
    have hword : (Event.setDpad d).word = 0x60 + arg.setWidth 8 := by
      rw [Event.word, hd]
      exact eventWord_eq_add 3 arg
    refine ⟨d, hcode, ?_⟩
    rw [hexec, ← hword]
    rfl
  case diag =>
    intro h0 h4
    obtain ⟨c, hc, hexec⟩ := exec_evDiag s h0 h4
    have hword : (Event.diag c).word = 0xE0 + arg.setWidth 8 := by
      rw [Event.word, hc]
      exact eventWord_eq_add 7 arg
    rw [hexec, ← hword]
    rfl

/-- Settles O41: past their ranges PRESS, SET_DPAD and DIAG name no key, direction or fault code. -/
theorem neverEmittedEventsAreRefused : Obligations.NeverEmittedEventsAreRefused :=
  fun s _ => ⟨exec_evPress_refused, exec_evSetDpad_refused s, exec_evDiag_refused s⟩

end Sys2Proof.Machine

/-! PROOF. The boot steps up to the choice of the configuration (R81 to R85): PINMODE, EXPINIT, CFGDIR, CFGEXP, and the waiting for a silent transport. -/

namespace Sys2Proof.Machine

/-- Settles O16: PINMODE writes the two fields and asks for nothing. -/
theorem pinmodeSetsThePullups : Obligations.PinmodeSetsThePullups := fun _ => rfl

/-! ## EXPINIT -/

/-- EXPINIT with the transport's answer: the request, then CFGDIR (R82). -/
theorem exec_expinit_answered {s : State} (h : s.env.expDone = true) :
    exec .expinit s = .next ((s.request .init).setPc (Pc.start .cfgdir)) :=
  congrArg Host.Outcome.next (if_pos h)

/-- EXPINIT without it: the request alone (log 6). -/
theorem exec_expinit_silent {s : State} (h : s.env.expDone = false) : exec .expinit s = .next (s.request .init) :=
  congrArg Host.Outcome.next (if_neg (Bool.eq_false_iff.1 h))

/-- Settles O17: the transport's answer decides whether the request is followed by the move to CFGDIR. -/
theorem expinitRequestsInit : Obligations.ExpinitRequestsInit :=
  fun _ => ⟨exec_expinit_answered, exec_expinit_silent⟩

/-! ## CFGDIR -/

/-- The bits of three joined together, the first the most significant. -/
theorem getLsbD_ofBool_append₃ : ∀ a b c : Bool,
    (BitVec.ofBool a ++ BitVec.ofBool b ++ BitVec.ofBool c).getLsbD 2 = a ∧
    (BitVec.ofBool a ++ BitVec.ofBool b ++ BitVec.ofBool c).getLsbD 1 = b ∧
    (BitVec.ofBool a ++ BitVec.ofBool b ++ BitVec.ofBool c).getLsbD 0 = c := by decide

/-- Settles O18: CFG_DIR is the three inverted levels joined, and its bits are read back one by one. -/
theorem cfgdirReadsThePinsActiveLow : Obligations.CfgdirReadsThePinsActiveLow := by
  intro s
  obtain ⟨h2, h1, h0⟩ := getLsbD_ofBool_append₃ (!s.pinLevel 0) (!s.pinLevel 1) (!s.pinLevel 2)
  exact ⟨_, rfl, h2, h1, h0, rfl⟩

/-! ## CFGEXP: the request -/

/-- The state in which CFGEXP looks at the transport's answer: its Wait has passed and its READ is out (R84, R7). -/
def State.cfgAsked (s : State) : State := (s.wait s.cfgWait).request (readOp s.params.cfgExpBank)

/-- The request changes `exp_op` and `now` only, and `now` once per reading that is not the first (log 5). -/
theorem State.cfgAsked_eq (s : State) :
    s.cfgAsked = { s with
      expOp := readOp s.params.cfgExpBank
      env := { s.env with
        now := if s.cfgPrevV = true ∧ s.cfgWaited = false then s.env.now + BitVec.ofNat 32 s.params.cfgDebounceTicks
          else s.env.now } } := by
  have hnow := now_after_cfgWait s
  simp only [Bool.and_eq_true, Bool.not_eq_true'] at hnow
  rw [State.cfgAsked, ← hnow]
  rfl

/-- CFGEXP with the transport's answer makes one reading (R84). -/
theorem exec_cfgexp_answered {s : State} (h : s.env.expDone = true) : exec .cfgexp s = .next s.cfgAsked.cfgexpReading :=
  congrArg Host.Outcome.next (if_pos h)

/-- CFGEXP without it marks its Wait as passed (logs 5 and 6). -/
theorem exec_cfgexp_silent {s : State} (h : s.env.expDone = false) :
    exec .cfgexp s = .next { s.cfgAsked with cfgWaited := true } :=
  congrArg Host.Outcome.next (if_neg (Bool.eq_false_iff.1 h))

/-! ## CFGEXP: what the reading decides -/

/-- Agreement: there is a reading before this one, and it is the same (R84). -/
theorem cfgAgrees_iff (s : State) : s.cfgAgrees = true ↔ s.cfgPrevV = true ∧ s.cfgReading = s.cfgPrev := by
  simp [State.cfgAgrees]

/-- No agreement: there is no reading before this one, or it differs (R84). -/
theorem cfgAgrees_eq_false_iff (s : State) :
    s.cfgAgrees = false ↔ (s.cfgPrevV = true → s.cfgReading ≠ s.cfgPrev) := by
  rw [← Bool.not_eq_true, cfgAgrees_iff, not_and]

/-- A reading that agrees ends the selection. -/
theorem cfgexpReading_of_agrees {s : State} (h : s.cfgAgrees = true) :
    s.cfgexpReading = { s with
      cfgReads := s.cfgReads + 1, cfgWaited := false
      cfgIndex := s.cfgDir ++ BitVec.ofBool s.cfgReading, pc := Pc.start .load } :=
  if_pos h

/-- A reading that does not agree and reaches the cap is fatal (R192). -/
theorem cfgexpReading_of_cap {s : State} (h : s.cfgAgrees = false) (h0 : 0 < s.params.cfgMaxReads)
    (hcap : s.params.cfgMaxReads ≤ s.cfgReads + 1) :
    s.cfgexpReading = State.fatal .nonConverge { s with cfgReads := s.cfgReads + 1, cfgWaited := false } :=
  (if_neg (Bool.eq_false_iff.1 h)).trans (if_pos ⟨h0, hcap⟩)

/-- A reading that does not agree below the cap is kept for the next comparison. -/
theorem cfgexpReading_below_cap {s : State} (h : s.cfgAgrees = false)
    (hcap : s.params.cfgMaxReads = 0 ∨ s.cfgReads + 1 < s.params.cfgMaxReads) :
    s.cfgexpReading = { s with
      cfgReads := s.cfgReads + 1, cfgWaited := false
      cfgPrev := s.cfgReading, cfgPrevV := true, pc := Pc.start .cfgexp } :=
  (if_neg (Bool.eq_false_iff.1 h)).trans (if_neg (by omega))

/-- CFG_INDEX as the number of R85. -/
theorem toNat_cfgIndex : ∀ (d : BitVec 3) (r : Bool), (d ++ BitVec.ofBool r).toNat =
    8 * (d.getLsbD 2).toNat + 4 * (d.getLsbD 1).toNat + 2 * (d.getLsbD 0).toNat + r.toNat := by decide

/-- Settles O19: the two readings agree, so CFG_INDEX is the three bits of CFG_DIR and this reading. -/
theorem cfgexpEndsOnAgreement : Obligations.CfgexpEndsOnAgreement := by
  intro s r hdone hprevV hr hprev
  subst hr
  have hagrees : s.cfgAsked.cfgAgrees = true := (cfgAgrees_iff s).2 ⟨hprevV, hprev⟩
  refine ⟨_, (exec_cfgexp_answered hdone).trans (congrArg _ (cfgexpReading_of_agrees hagrees)),
    toNat_cfgIndex s.cfgDir s.cfgReading, ?frame⟩
  case frame =>
    have hnow : (if s.cfgWaited = true then s.env.now else s.env.now + BitVec.ofNat 32 s.params.cfgDebounceTicks) =
        if s.cfgPrevV = true ∧ s.cfgWaited = false then s.env.now + BitVec.ofNat 32 s.params.cfgDebounceTicks
        else s.env.now := by
      cases s.cfgWaited <;> simp [hprevV]
    rw [State.cfgAsked_eq, hnow]
    rfl

/-- Settles O20: below the cap the reading becomes CFG_PREV. -/
theorem cfgexpRepeatsOnDisagreement : Obligations.CfgexpRepeatsOnDisagreement := by
  intro s r hdone hr hdiffers hbelow
  subst hr
  have hagrees : s.cfgAsked.cfgAgrees = false := (cfgAgrees_eq_false_iff s).2 hdiffers
  rw [exec_cfgexp_answered hdone, cfgexpReading_below_cap hagrees hbelow, State.cfgAsked_eq]
  rfl

/-- Settles O21: at the cap the fatal entry of R196 is taken with the code of NONCONVERGE. -/
theorem cfgexpHaltsAtTheCap : Obligations.CfgexpHaltsAtTheCap := by
  intro s r hdone hr hdiffers h0 hcap
  subst hr
  have hagrees : s.cfgAsked.cfgAgrees = false := (cfgAgrees_eq_false_iff s).2 hdiffers
  rw [exec_cfgexp_answered hdone, cfgexpReading_of_cap hagrees h0 hcap, State.cfgAsked_eq]
  rfl

/-! ## The waiting -/

/-- SAMPLE.A without the transport's answer: the request alone (log 6). -/
theorem exec_sampleA_silent {s : State} (h : s.env.expDone = false) : exec .sampleA s = .next (s.request .readA) :=
  congrArg Host.Outcome.next (if_neg (Bool.eq_false_iff.1 h))

/-- SAMPLE.B without the transport's answer: the request alone (log 6). -/
theorem exec_sampleB_silent {s : State} (h : s.env.expDone = false) : exec .sampleB s = .next (s.request .readB) :=
  congrArg Host.Outcome.next (if_neg (Bool.eq_false_iff.1 h))

/-- Settles O22: each of the four steps leaves its request, and CFGEXP its Wait besides. -/
theorem silentTransportHoldsTheStep : Obligations.SilentTransportHoldsTheStep := by
  intro s hsilent
  refine ⟨exec_expinit_silent hsilent, ?cfgexp, exec_sampleA_silent hsilent, exec_sampleB_silent hsilent⟩
  rw [exec_cfgexp_silent hsilent, State.cfgAsked_eq]

end Sys2Proof.Machine

/-! PROOF. The boot steps after the choice of the configuration (R91 to R93): LOAD and BEGIN. -/

namespace Sys2Proof.Machine

/-! ## LOAD -/

/-- LOAD answers in every state, and what it leaves is LOAD's effect (R91). -/
theorem exec_load_effect (s : State) : ∃ t, exec .load s = .next t ∧ PhaseEffect s .load t :=
  ⟨_, execLoad_eq s, rfl⟩

/-- LOAD fills all three registers of every button, and writes no other field but `pc` (R91). -/
theorem PhaseEffect.load_frame {s t : State} (h : PhaseEffect s .load t) :
    t.key.length = 3 * s.params.nButtons ∧ t = { s with key := t.key, pc := Pc.start .begin } := by
  cases h
  exact ⟨by rw [List.length_map, List.length_range], rfl⟩

/-- Settles O23: the 4-bit index keeps CFGRANGE and the end of MAPTAB out of reach, so LOAD's effect is all it can do. -/
theorem loadCopiesTheConfiguration : Obligations.LoadCopiesTheConfiguration := by
  intro s
  obtain ⟨t, hexec, heffect⟩ := exec_load_effect s
  obtain ⟨hlength, hframe⟩ := heffect.load_frame
  exact ⟨t, hexec, heffect.load_keys, hlength, hframe⟩

/-! ## BEGIN -/

/-- The event BEGIN is the word 0x00, and the layer passes over it (R72, R176). -/
theorem State.emit_begin (s : State) :
    s.emit .begin = { s with evt := 0x00, evtValid := true, events := s.events ++ [0x00] } := rfl

/-- Settles O24: `now` is the environment's, which the event BEGIN leaves as it was. -/
theorem beginLatchesTheTurboTime : Obligations.BeginLatchesTheTurboTime := by
  intro s
  have hexec : exec .begin s = .next { s.emit .begin with turboTs := s.env.now, pc := Pc.start .relall } := rfl
  rw [hexec, State.emit_begin]
  rfl

end Sys2Proof.Machine

/-! PROOF. The debouncer (R101 to R106, R110): its transition, the sample steps, and when a button is pressed. -/

namespace Sys2Proof.Machine

/-! ## The transition of a bank (R104) -/

/-- The transition written out, with the time stamp of the last change named. -/
theorem debounce_eq {window : Nat} {k : BankState} {raw : Byte} {t ts : Time} (hts : ts = if raw ≠ k.prev then t else k.ts) :
    debounce window k raw t =
      { acc := if window < (t - ts).toNat ∧ raw ≠ k.acc then raw else k.acc, prev := raw, ts := ts } := by
  subst hts
  rfl

/-- A byte that differs from the one before restarts the timer and promotes nothing, whatever the window. -/
theorem debounce_of_changed {window : Nat} {k : BankState} {raw : Byte} {t : Time} (h : raw ≠ k.prev) :
    debounce window k raw t = { k with prev := raw, ts := t } := by
  have hwindow : ¬ window < (t - t).toNat := by simp
  rw [debounce_eq (if_pos h).symm, if_neg fun hpromoted => hwindow hpromoted.1]

/-- A repeated byte leaves the timer as it is, and is accepted strictly past the window (R105). -/
theorem debounce_of_repeated {window : Nat} {k : BankState} {raw : Byte} {t : Time} (h : raw = k.prev) :
    debounce window k raw t = { k with acc := if window < (t - k.ts).toNat then raw else k.acc } := by
  subst h
  rw [debounce_eq (if_neg (not_not_intro rfl)).symm]
  by_cases hacc : k.prev = k.acc <;> simp [hacc]

/-- Samples that each leave a bank as it is leave it so together. -/
theorem foldl_debounce_fixed {window : Nat} {k : BankState} {raw : Byte} {times : List Time}
    (h : ∀ u ∈ times, debounce window k raw u = k) : times.foldl (fun j u => debounce window j raw u) k = k := by
  induction times with
  | nil => rfl
  | cons u times ih =>
    obtain ⟨hfirst, hrest⟩ := List.forall_mem_cons.1 h
    rw [List.foldl_cons, hfirst, ih hrest]

/-- A change first seen at `t0` and repeated within the window is recorded, with `t0`, and not accepted. -/
theorem foldl_debounce_within {window : Nat} {k : BankState} {raw : Byte} {t0 : Time} {between : List Time}
    (hprev : raw ≠ k.prev) (hbetween : ∀ u ∈ between, (u - t0).toNat ≤ window) :
    between.foldl (fun j u => debounce window j raw u) (debounce window k raw t0) = { k with prev := raw, ts := t0 } := by
  rw [debounce_of_changed hprev]
  refine foldl_debounce_fixed fun u hu => ?_
  rw [debounce_of_repeated rfl, if_neg (hbetween u hu).not_gt]

/-- Settles O28: after the samples within the window, the window alone decides the last one. -/
theorem stableReadingIsAccepted : Obligations.StableReadingIsAccepted := by
  intro window k raw t0 t between hprev _ hbetween seen
  have hseen : seen = { k with prev := raw, ts := t0 } := foldl_debounce_within hprev hbetween
  rw [hseen, debounce_of_repeated rfl]
  exact ⟨rfl, fun hwithin => if_neg hwithin.not_gt, fun hpast => if_pos hpast⟩

/-- Settles O29: with the accepted and the last byte both the raw byte, a promotion would write what is there already. -/
theorem acceptedReadingIsPromotedOnce : Obligations.AcceptedReadingIsPromotedOnce := by
  intro window k raw times hacc hprev
  refine foldl_debounce_fixed fun u _ => ?_
  rw [debounce_of_repeated hprev.symm, hacc, ite_self, ← hacc]

/-! ## Pressed buttons (R101) -/

/-- PINMAP answers for the buttons there are (R41). -/
theorem memReadPinmap_of_lt {p : Params} {b : Nat} (h : b < p.nButtons) : memReadPinmap p b = p.pinmap[b]? := if_pos h

/-- PINMAP answers for no other button (R44; log 13). -/
theorem memReadPinmap_of_ge {p : Params} {b : Nat} (h : p.nButtons ≤ b) : memReadPinmap p b = none := if_neg h.not_gt

/-- The pin number is the entry's low three bits (R67). -/
theorem toNat_pinBit (e : BitVec 4) : (pinBit e).toNat = e.toNat % 8 := by simp [pinBit]

/-- The accepted byte of the bank that bit 3 of an entry names (R67). -/
theorem State.acc_of_pinBank (s : State) (e : BitVec 4) :
    (s.bank (pinBank e)).acc = if e.getLsbD 3 then s.bankB.acc else s.bankA.acc := by
  rw [pinBank]
  cases e.getLsbD 3 <;> rfl

/-- A button whose PINMAP entry is known is pressed when the entry's accepted level is low (R101). -/
theorem isPressed_of_entry {s : State} {b e : BitVec 4} (h : memReadPinmap s.params b.toNat = some e) :
    s.isPressed b =
      some (decide ((if e.getLsbD 3 then s.bankB.acc else s.bankA.acc).getLsbD (e.toNat % 8) = false)) := by
  rw [State.isPressed, h, Option.map_some, s.acc_of_pinBank, toNat_pinBit, Bool.decide_eq_false]

/-- Settles O30: PINMAP has an entry for exactly the existing buttons. -/
theorem pressedMeansAcceptedLow : Obligations.PressedMeansAcceptedLow := by
  intro s b hp
  constructor
  · intro hb
    have hlength : b.toNat < s.params.pinmap.length := by rwa [hp.pinmap_length]
    have hentry := List.getElem?_eq_getElem hlength
    exact ⟨_, hentry, isPressed_of_entry ((memReadPinmap_of_lt hb).trans hentry)⟩
  · intro hb
    rw [State.isPressed, memReadPinmap_of_ge hb, Option.map_none]

/-! ## The sample steps (R102, R103) -/

/-- SAMPLE.A with the transport's answer: the request, the transition of bank A, then SAMPLE.B (R102). -/
theorem exec_sampleA_answered {s : State} (h : s.env.expDone = true) :
    exec .sampleA s = .next { s.request .readA with
      bankA := debounce s.params.debounceTicks s.bankA s.env.expData s.env.now, pc := Pc.start .sampleB } :=
  congrArg Host.Outcome.next (if_pos h)

/-- SAMPLE.B with the transport's answer: the request, the transition of bank B, then the first RESOLVE position (R103). -/
theorem exec_sampleB_answered {s : State} (h : s.env.expDone = true) :
    exec .sampleB s = .next { s.request .readB with
      bankB := debounce s.params.debounceTicks s.bankB s.env.expData s.env.now, pc := Pc.resolveAt 0 1 } :=
  congrArg Host.Outcome.next (if_pos h)

/-- Settles O26: the time stamp of the statement is the one the transition writes. -/
theorem sampleADebouncesBankA : Obligations.SampleADebouncesBankA := by
  intro s ts hdone hts
  rw [exec_sampleA_answered hdone, debounce_eq hts]
  rfl

/-- Settles O27: bank B, and no field of bank A. -/
theorem sampleBDebouncesBankB : Obligations.SampleBDebouncesBankB := by
  intro s ts hdone hts
  rw [exec_sampleB_answered hdone, debounce_eq hts]
  rfl

end Sys2Proof.Machine

/-! PROOF. The meanings of the slot words (R120 to R151): what each word decodes to and what it does, for every N_BTN_KEYS. -/

namespace Sys2Proof.Machine

/-! ## BTN and BTN.T (R122, R123) -/

/-- What one PRESS of `k` changes, from `s` to `t` (R122, R176): the gamepad port, the stream, and `k` in the report's keys. -/
def PressesOnly (k : KeyConst) (s t : State) : Prop :=
  t.evt = 0x40 + k.setWidth 8 ∧ t.evtValid = true ∧ t.events = s.events ++ [0x40 + k.setWidth 8] ∧
    (∀ j, j ∈ t.layer.keys ↔ j = k ∨ j ∈ s.layer.keys) ∧
    t.layer = { s.layer with keys := t.layer.keys } ∧
    t = { s with evt := t.evt, evtValid := t.evtValid, events := t.events, layer := t.layer }

/-- The PRESS event word is 0x40 with the key constant added (R72). -/
theorem word_press (k : KeyConst) : (Event.press k).word = 0x40 + k.setWidth 8 := eventWord_eq_add 2 k

theorem emit_press_pressesOnly (k : KeyConst) (s : State) : PressesOnly k s (s.emit (.press k)) := by
  rw [PressesOnly, ← word_press]
  exact ⟨rfl, rfl, rfl, fun j => mem_insertKey, rfl, rfl⟩

/-- The word of `BTN k` is `k`. Five bits of key are below the turbo tag whatever N_BTN_KEYS, so no bound on it is needed. -/
theorem decodeSlot_button {n : Nat} {k : KeyConst} (h : k.toNat < n) : decodeSlot n (k.setWidth 7) = .btn k := by
  obtain ⟨hkey, hbtn, hfit, hback⟩ := button_keyId h
  have hword : (k.setWidth 7 : SlotWord).toNat = k.toNat := BitVec.toNat_setWidth_of_le (by decide)
  have htag : slotT n (k.setWidth 7) = false := Nat.testBit_lt_two_pow (by omega)
  have hfield : slotKey n (k.setWidth 7) = k.setWidth 6 := by
    rw [slotKey, hword, Nat.mod_eq_of_lt (by omega), ← hkey, BitVec.ofNat_toNat, BitVec.setWidth_eq]
  rw [decodeSlot, htag, hfield]
  exact (decodePlainKey_button hbtn).trans (congrArg Instr.btn hback)

/-- The word of `BTN.T k` is `k` with the turbo tag. -/
theorem decodeSlot_turboButton {n : Nat} {k : KeyConst} (hn : n ≤ 32) (h : k.toNat < n) :
    decodeSlot n (BitVec.ofNat 7 (2 ^ keyW n + k.toNat)) = .btnT k :=
  Decoded.ok.inj (roundTrips_btnT hn h).1

/-- At the reference the turbo tag is worth 0x40 (R60). -/
theorem turboWord_ref (k : KeyConst) : 0x40 + k.setWidth 7 = BitVec.ofNat 7 (2 ^ keyW refBtnKeys + k.toNat) := by
  change 0x40#7 + k.setWidth 7 = BitVec.ofNat 7 (0x40 + k.toNat)
  rw [BitVec.ofNat_add, BitVec.ofNat_toNat]

theorem exec_btnT_off {s : State} (k : KeyConst) (h : s.turboPhase = false) : exec (.btnT k) s = .next s :=
  congrArg Host.Outcome.next (if_neg (Bool.eq_false_iff.1 h))

theorem exec_btnT_on {s : State} (k : KeyConst) (h : s.turboPhase = true) :
    exec (.btnT k) s = .next (s.emit (.press k)) :=
  congrArg Host.Outcome.next (if_pos h)

/-- Settles O11: `BTN k` is one PRESS. -/
theorem buttonWordPressesItsKey : Obligations.ButtonWordPressesItsKey :=
  fun k s => ⟨decodeSlot_button, s.emit (.press k), rfl, emit_press_pressesOnly k s⟩

/-- Settles O12: `BTN.T k` is one PRESS in the on phase only. -/
theorem turboButtonPressesOnlyWhenOn : Obligations.TurboButtonPressesOnlyWhenOn := by
  intro k s
  refine ⟨fun h => ?_, decodeSlot_turboButton, exec_btnT_off k, fun hon => ?_⟩
  · rw [turboWord_ref]
    exact decodeSlot_turboButton (by decide) h
  · exact ⟨s.emit (.press k), exec_btnT_on k hon, emit_press_pressesOnly k s⟩

/-! ## The illegal words (R151, R196) -/

/-- The fatal entry BADSLOT, written out: the layer takes no notice of its DIAG event (R176). -/
theorem fatal_badSlot (s : State) :
    s.fatal .badSlot =
      { s with fault := 3, evt := 0xE3, evtValid := true, events := s.events ++ [0xE3], pc := ⟨15, 0, 0⟩ } := rfl

theorem exec_of_illegal {w : SlotWord} {s : State} (h : legal s.params.nBtnKeys w = false) :
    exec (decodeSlot s.params.nBtnKeys w) s = .next (s.fatal .badSlot) := by
  obtain ⟨t, ht, ⟨hlegal, -⟩ | ⟨_, hlegal, -⟩ | ⟨-, -, rfl⟩⟩ := execSlotWord_cases w s
  · exact absurd (h.symm.trans hlegal) Bool.false_ne_true
  · exact absurd (h.symm.trans hlegal) Bool.false_ne_true
  · rw [← execSlotWord_eq, ht]

/-- R151's 68 words: keys 44 to 63 without the turbo tag, 16 to 63 with it. -/
theorem illegal_ref_iff (w : SlotWord) :
    legal refBtnKeys w = false ↔ (0x2C ≤ w.toNat ∧ w.toNat ≤ 0x3F) ∨ 0x50 ≤ w.toNat := by
  by_cases h : w.toNat < 64
  · rw [legal_ref_plain h, decide_eq_false_iff_not]
    omega
  · rw [legal_ref_turbo (Nat.not_lt.1 h), decide_eq_false_iff_not]
    omega

/-- Settles O13: an illegal word is the fatal entry, and at the reference there are R151's 68. -/
theorem illegalWordsTakeBadSlot : Obligations.IllegalWordsTakeBadSlot := by
  refine ⟨illegal_ref_iff, fun w s h => ?_⟩
  rw [exec_of_illegal h, fatal_badSlot]

/-- Settles O14: the four rows share one meaning, which looks at no free bit. -/
theorem everyIllegalRowHalts : Obligations.EveryIllegalRowHalts := by
  intro s a b e k5 lo i hi
  have hexec : exec i s = .next (s.fatal .badSlot) := by
    simp only [List.mem_cons, List.not_mem_nil, or_false] at hi
    obtain rfl | rfl | rfl | rfl := hi <;> rfl
  rw [hexec, fatal_badSlot]

/-! ## The legal words (R120) -/

/-- Settles O15: of the outcomes of a slot word only the fatal entry is shut out by legality. -/
theorem legalWordsDoNothingElse : Obligations.LegalWordsDoNothingElse := by
  intro w s h
  obtain ⟨t, ht, hcases⟩ := execSlotWord_cases w s
  rw [execSlotWord_eq] at ht
  refine ⟨t, ht, ?_⟩
  rcases hcases with ⟨-, -, rfl | ⟨k, hk, rfl⟩⟩ | ⟨d, -, -, rfl⟩ | ⟨hillegal, -⟩
  · exact .inl rfl
  · refine .inr ⟨k, hk, ?_⟩
    rw [← word_press]
    exact ⟨rfl, rfl⟩
  · exact .inl rfl
  · exact absurd (hillegal.symm.trans h) Bool.false_ne_true

/-! ## The keys past the regular buttons (R62, R64) -/

/-- The word of entry `m` is the key `N_BTN_KEYS + m`. -/
theorem decodeSlot_fixed {n m : Nat} (hn : n ≤ 32) (hm : m < fixedKeys.length) :
    decodeSlot n (BitVec.ofNat 7 (n + m)) = fixedKeys[m] := by
  have hdec := (roundTrips_fixed hn (List.getElem_mem hm)).1
  rw [encode_fixed n hm] at hdec
  exact Decoded.ok.inj hdec

/-- A word of the reference from 0x10 on names an entry by its distance from 0x10, and so does a word of another N_BTN_KEYS by its distance from there. -/
theorem fixedWord_decodes {w : SlotWord} {i : Instr} (h : 0x10 ≤ w.toNat ∧ fixedKeys[w.toNat - 16]? = some i) :
    decodeSlot refBtnKeys w = i ∧ ∀ n ≤ 32, decodeSlot n (BitVec.ofNat 7 (n + (w.toNat - 16))) = i := by
  obtain ⟨hw, hi⟩ := h
  obtain ⟨hm, rfl⟩ := List.getElem?_eq_some_iff.1 hi
  have hword : BitVec.ofNat 7 (refBtnKeys + (w.toNat - 16)) = w := by
    rw [show refBtnKeys + (w.toNat - 16) = w.toNat from Nat.add_sub_of_le hw, BitVec.ofNat_toNat, BitVec.setWidth_eq]
  refine ⟨?_, fun n hn => decodeSlot_fixed hn hm⟩
  rw [← decodeSlot_fixed (n := refBtnKeys) (by decide) hm, hword]

/-! ## NOOP and the sticks (R118, R119, R121) -/

/-- From the tenth entry on, the sticks and NOOP, the fixed keys have no effect. -/
theorem exec_fixed_idle {m : Nat} (h9 : 9 ≤ m) (hm : m < fixedKeys.length) (s : State) : exec fixedKeys[m] s = .next s := by
  have hm28 : m < 28 := hm
  interval_cases m <;> rfl

/-- A stick word, by its number at the reference. -/
theorem stickWord_changesNothing {w : SlotWord} {i : Instr} (h : 0x19 ≤ w.toNat ∧ fixedKeys[w.toNat - 16]? = some i) :
    decodeSlot refBtnKeys w = i ∧ (∀ n ≤ 32, decodeSlot n (BitVec.ofNat 7 (n + (w.toNat - 16))) = i) ∧
      ∀ s, exec i s = .next s := by
  obtain ⟨hw, hi⟩ := h
  obtain ⟨href, hany⟩ := fixedWord_decodes ⟨by omega, hi⟩
  obtain ⟨hm, rfl⟩ := List.getElem?_eq_some_iff.1 hi
  exact ⟨href, hany, exec_fixed_idle (by omega) hm⟩

/-- The turbo tag on a key past the regular buttons is illegal (R65). -/
theorem legal_turbo_eq_false {n key : Nat} {w : SlotWord} (hn : n ≤ 32) (h : w.toNat = 2 ^ keyW n + key)
    (hkey : key < 2 ^ keyW n) (hpast : n ≤ key) : legal n w = false := by
  obtain ⟨htag, hfield⟩ := slot_fields_turbo hn h hkey
  have hbtn : isRegularButton n (slotKey n w) = false := decide_eq_false (by omega)
  rw [legal, htag, hbtn]
  exact Bool.and_false _

/-- Settles O6: NOOP is the last of the fixed keys, and its turbo form is no regular button. -/
theorem noopChangesNothing : Obligations.NoopChangesNothing := by
  refine ⟨rfl, (illegal_ref_iff 0x6B).2 (.inr (by decide)), fun n hn => ⟨?_, ?_⟩, fun _ => rfl⟩
  · exact decodeSlot_fixed (m := 27) hn (by decide)
  · have hfit : n + 28 ≤ 2 ^ keyW n := nKeys_le_two_pow_keyW n
    have hw := two_pow_keyW_le hn
    have hword : (BitVec.ofNat 7 (2 ^ keyW n + n + 27)).toNat = 2 ^ keyW n + (n + 27) := by
      rw [BitVec.toNat_ofNat, Nat.mod_eq_of_lt (by omega), Nat.add_assoc]
    exact legal_turbo_eq_false hn hword (by omega) (by omega)

/-- Settles O7: the left-stick words are the entries 9 to 17 of the fixed keys. -/
theorem leftStickWordsChangeNothing : Obligations.LeftStickWordsChangeNothing := by
  intro e he
  have hrow : 0x19 ≤ e.1.toNat ∧ fixedKeys[e.1.toNat - 16]? = some e.2 := by
    revert e
    decide
  exact stickWord_changesNothing hrow

/-- Settles O8: the right-stick words are the entries 18 to 26 of the fixed keys. -/
theorem rightStickWordsChangeNothing : Obligations.RightStickWordsChangeNothing := by
  intro e he
  have hrow : 0x19 ≤ e.1.toNat ∧ fixedKeys[e.1.toNat - 16]? = some e.2 := by
    revert e
    decide
  exact stickWord_changesNothing hrow

/-! ## The D-pad (R117, R124 to R132) -/

/-- An instruction whose shape gives a direction adds that direction's increments. -/
theorem exec_of_slotShape_dir {i : Instr} {d : Dir} (h : slotShape i = (true, some d)) (s : State) :
    exec i s = .next (s.addDir d) := by
  cases i <;> cases h <;> rfl

/-- The same with the two sums named. -/
theorem exec_dpad {i : Instr} {d : Dir} {s : State} {x y : Acc} (h : slotShape i = (true, some d))
    (hx : s.x + d.dx = x) (hy : s.y + d.dy = y) : exec i s = .next { s with x := x, y := y } := by
  rw [exec_of_slotShape_dir h, State.addDir, hx, hy]
  rfl

/-- Settles O9: the D-pad words are the first nine fixed keys, and each adds the increments of R64. -/
theorem dpadWordsMoveTheAccumulators : Obligations.DpadWordsMoveTheAccumulators := by
  constructor
  · intro e he
    have hrow : 0x10 ≤ e.1.toNat ∧ fixedKeys[e.1.toNat - 16]? = some e.2 := by
      revert e
      decide
    exact fixedWord_decodes hrow
  · intro s
    have stay : ∀ a : Acc, a + 0 = a := add_zero
    have back : ∀ a : Acc, a + -1 = a - 1 := fun a => (sub_eq_add_neg a 1).symm
    exact ⟨exec_dpad rfl (stay s.x) (stay s.y), exec_dpad rfl (stay s.x) rfl, exec_dpad rfl rfl rfl,
      exec_dpad rfl rfl (stay s.y), exec_dpad rfl rfl (back s.y), exec_dpad rfl (stay s.x) (back s.y),
      exec_dpad rfl (back s.x) (back s.y), exec_dpad rfl (back s.x) (stay s.y), exec_dpad rfl (back s.x) rfl⟩

end Sys2Proof.Machine

/-! PROOF. SOCD as integer arithmetic: the clamp is the sign, the D-pad additions do not wrap, and DPADOUT shows the signs (R117, R157 to R161). -/

namespace Sys2Proof.Machine

/-! ## The clamp and the lookup (R157, R158) -/

/-- The three branches of the clamp are the three values of the sign. -/
theorem toInt_clamp (v : Acc) : (clamp v).toInt = v.toInt.sign := by
  have below : v.slt (-1) = true ↔ v.toInt < -1 := BitVec.slt_iff_toInt_lt
  have above : BitVec.slt 1 v = true ↔ 1 < v.toInt := BitVec.slt_iff_toInt_lt
  unfold clamp
  split
  case isTrue hlow =>
    rw [below] at hlow
    have hneg : v.toInt < 0 := by omega
    exact (Int.sign_eq_neg_one_of_neg hneg).symm
  case isFalse hlow =>
    rw [below] at hlow
    split
    case isTrue hhigh =>
      rw [above] at hhigh
      have hpos : 0 < v.toInt := by omega
      exact (Int.sign_eq_one_of_pos hpos).symm
    case isFalse hhigh =>
      rw [above] at hhigh
      obtain h | h | h : v.toInt = -1 ∨ v.toInt = 0 ∨ v.toInt = 1 := by omega
      all_goals rw [h]; rfl

theorem clamp_clamp (v : Acc) : clamp (clamp v) = clamp v :=
  BitVec.eq_of_toInt_eq (by rw [toInt_clamp, toInt_clamp, Int.sign_sign])

theorem dlut_increments (d : Dir) : dlut d.dx d.dy = some d := by cases d <;> rfl

/-- Settles O36, from the clamp's branches and the nine entries of R158. -/
theorem clampIsSignAndLookupInverts : Obligations.ClampIsSignAndLookupInverts :=
  ⟨fun v => ⟨toInt_clamp v, clamp_clamp v⟩, dlut_increments⟩

/-! ## The additions (R117, R161) -/

theorem Dir.natAbs_increments_le (d : Dir) : d.dx.toInt.natAbs ≤ 1 ∧ d.dy.toInt.natAbs ≤ 1 := by cases d <;> decide

/-- An accumulator below R161's bound is too far from the ends of its 8 bits for one increment to wrap. -/
theorem toInt_add_increment {v a : Acc} (hv : v.toInt.natAbs < 45) (ha : a.toInt.natAbs ≤ 1) :
    (v + a).toInt = v.toInt + a.toInt := by
  rw [BitVec.toInt_add]
  exact Int.bmod_eq_of_le (by omega) (by omega)

/-- Below R161's bound a direction is added as two integers. -/
theorem toInt_addDir {s : State} (d : Dir) (hx : s.x.toInt.natAbs < 45) (hy : s.y.toInt.natAbs < 45) :
    (s.addDir d).x.toInt = s.x.toInt + d.dx.toInt ∧ (s.addDir d).y.toInt = s.y.toInt + d.dy.toInt :=
  ⟨toInt_add_increment hx d.natAbs_increments_le.1, toInt_add_increment hy d.natAbs_increments_le.2⟩

/-- A word with a direction adds it. -/
theorem exec_of_slotDir {w : SlotWord} {d : Dir} {s : State} (h : slotDir s.params.nBtnKeys w = some d) :
    exec (decodeSlot s.params.nBtnKeys w) s = .next (s.addDir d) := by
  rw [← execSlotWord_eq]
  obtain ⟨t, ht, ⟨-, hnone, -⟩ | ⟨e, -, he, rfl⟩ | ⟨-, hnone, -⟩⟩ := execSlotWord_cases w s
  · cases h.symm.trans hnone
  · cases h.symm.trans he
    exact ht
  · cases h.symm.trans hnone

/-- Settles O10: the word adds its direction, and below the bound no 8-bit addition wraps. -/
theorem dpadAdditionsNeverWrap : Obligations.DpadAdditionsNeverWrap := by
  intro w d s hd hx0 hx1 hy0 hy1
  obtain ⟨hx, hy⟩ := toInt_addDir (s := s) d (by omega) (by omega)
  exact ⟨s.addDir d, exec_of_slotDir hd, hx, hy, rfl⟩

/-! ## DPADOUT (R159) -/

theorem word_setDpad (d : Dir) : (Event.setDpad d).word = 0x60 + d.offset.setWidth 8 := by cases d <;> rfl

/-- Settles O35: the clamped accumulators are the signs, and the lookup finds the direction that has them as increments. -/
theorem dpadoutShowsTheSigns : Obligations.DpadoutShowsTheSigns := by
  intro s
  obtain ⟨d, hx, hy, hexec⟩ := execDpadout_eq s
  refine ⟨d, by rw [hx, toInt_clamp], by rw [hy, toInt_clamp], ?_⟩
  rw [← word_setDpad, hx, hy]
  exact hexec

end Sys2Proof.Machine

/-! PROOF. The accumulators through a cycle (R156, R159 to R161, R35 b and c): the sums of the walk so far, then their signs. -/

namespace Sys2Proof.Machine

/-! ## The walk's directions -/

@[simp] theorem State.walkDir_setPc (s : State) (p : Pc) (j : Nat) : (s.setPc p).walkDir j = s.walkDir j := rfl
@[simp] theorem State.walkDir_emit (s : State) (e : Event) (j : Nat) : (s.emit e).walkDir j = s.walkDir j := rfl
@[simp] theorem State.walkDir_addDir (s : State) (d : Dir) (j : Nat) : (s.addDir d).walkDir j = s.walkDir j := rfl

/-- The positions of an unpressed button add nothing. -/
theorem walkDir_unpressed {s : State} {b : BitVec 4} {j : Nat} (hj : j / 3 = b.toNat) (h : s.isPressed b = some false) :
    s.walkDir j = none := by
  simp [State.walkDir, hj, h]

/-- The position of a pressed button's slot adds the direction of the word in it. -/
theorem walkDir_pressed {s : State} {b : BitVec 4} {slot : BitVec 2} {w : SlotWord} (hs : slot ≠ 0)
    (hb : b.toNat < s.params.nButtons) (h : s.isPressed b = some true) (hw : s.readKey slot b = some w) :
    s.walkDir (Pc.resolveAt b slot).walked = slotDir s.params.nBtnKeys w := by
  have hindex : (Pc.resolveAt b slot).walked = b.toNat * 3 + (slot.toNat - 1) := by
    simp only [Pc.walked, Pc.resolveAt, Nat.mul_comm]
  obtain ⟨hdiv, -⟩ := keyIndex_div_mod (b := b) hs
  rw [readKey_eq hs hb] at hw
  simp [State.walkDir, hindex, hdiv, h, hw]

/-! ## The sums so far -/

/-- x and y hold the integer sums over the first `n` positions of the walk (R156). -/
def State.HoldsSum (s : State) (n : Nat) : Prop := s.x.toInt = s.sumX n ∧ s.y.toInt = s.sumY n

/-- The sums read the accumulators and the walk's directions only. -/
theorem State.HoldsSum.congr {s t : State} {n : Nat} (h : s.HoldsSum n) (hw : ∀ j, t.walkDir j = s.walkDir j)
    (hx : t.x = s.x) (hy : t.y = s.y) : t.HoldsSum n := by
  obtain ⟨ex, ey⟩ := sums_congr hw n
  unfold State.HoldsSum
  rw [hx, hy, ex, ey]
  exact h

theorem State.holdsSum_zero {s : State} (hx : s.x = 0) (hy : s.y = 0) : s.HoldsSum 0 := by
  constructor
  · rw [hx]; rfl
  · rw [hy]; rfl

/-- Past a position that adds nothing the sums stay. -/
theorem State.HoldsSum.skip {s : State} {n : Nat} (h : s.HoldsSum n) (hd : s.walkDir n = none) : s.HoldsSum (n + 1) := by
  simpa [State.HoldsSum, State.sumX, State.sumY, hd] using h

/-- Past a position with a direction the accumulators hold the sums again: there are at most 45 positions, so the additions do not wrap (R161). -/
theorem State.HoldsSum.addDir {s : State} {n : Nat} {d : Dir} (h : s.HoldsSum n) (hn : n < 45)
    (hd : s.walkDir n = some d) : (s.addDir d).HoldsSum (n + 1) := by
  obtain ⟨hx, hy⟩ := h
  obtain ⟨boundx, boundy⟩ := sums_natAbs_le s n
  obtain ⟨ax, ay⟩ := toInt_addDir (s := s) d (by omega) (by omega)
  obtain ⟨ex, ey⟩ := sums_congr (s.walkDir_addDir d) (n + 1)
  constructor
  · rw [ax, ex, State.sumX, hd, hx]; rfl
  · rw [ay, ey, State.sumY, hd, hy]; rfl

/-- An unpressed button adds nothing from any of its slots on. -/
theorem State.HoldsSum.unpressed {s : State} {b : BitVec 4} {n : Nat} (h : s.HoldsSum n) (hlo : 3 * b.toNat ≤ n)
    (hhi : n ≤ 3 * (b.toNat + 1)) (hp : s.isPressed b = some false) : s.HoldsSum (3 * (b.toNat + 1)) := by
  induction hhi using Nat.decreasingInduction with
  | self => exact h
  | of_succ m hm ih => exact ih (h.skip (walkDir_unpressed (by omega) hp)) (by omega)

/-! ## What the invariant says at each position -/

theorem Phase.code_eq_resolve {ph : Phase} : ph.code = Phase.resolve.code ↔ ph = .resolve := by cases ph <;> decide

/-- What x, y and the layer hold at the position of a phase other than RESOLVE. -/
def State.SumAt (s : State) : Phase → Prop
  | .turbo | .sampleA | .sampleB => s.x = 0 ∧ s.y = 0
  | .dpadout => s.HoldsSum (3 * s.params.nButtons)
  | .commit =>
    s.x.toInt = (s.sumX (3 * s.params.nButtons)).sign ∧ s.y.toInt = (s.sumY (3 * s.params.nButtons)).sign ∧
    ∃ d, s.layer.dpad = some d ∧ d.dx = s.x ∧ d.dy = s.y
  | _ => True

/-- At `(phase, 0, 0)` the invariant is its clause for that phase. -/
theorem accumulatorsSum_start {s : State} {ph : Phase} (hr : ph ≠ .resolve) (hpc : s.pc = Pc.start ph) :
    AccumulatorsSum s ↔ s.SumAt ph := by
  have named : ∀ q ∈ [Phase.turbo, .sampleA, .sampleB, .dpadout, .commit], Pc.start ph = Pc.start q → ph = q := by
    cases ph <;> decide
  constructor
  · rintro ⟨before, -, whole, shown⟩
    rw [hpc] at before whole shown
    cases ph with
    | turbo => exact before (.inl rfl)
    | sampleA => exact before (.inr (.inl rfl))
    | sampleB => exact before (.inr (.inr rfl))
    | dpadout => exact whole rfl
    | commit => exact shown rfl
    | _ => trivial
  · intro h
    constructor <;> rw [hpc]
    · rintro (e | e | e) <;> cases named _ (by simp) e <;> exact h
    · exact fun e => absurd (Phase.code_eq_resolve.1 e) hr
    · intro e
      cases named _ (by simp) e
      exact h
    · intro e
      cases named _ (by simp) e
      exact h

/-- At a RESOLVE position the invariant is the sums over the positions before it. -/
theorem accumulatorsSum_resolveAt {s : State} {b : BitVec 4} {slot : BitVec 2} (hpc : s.pc = Pc.resolveAt b slot) :
    AccumulatorsSum s ↔ s.HoldsSum (Pc.resolveAt b slot).walked := by
  have hne : ∀ ph : Phase, ph ≠ .resolve → Pc.resolveAt b slot ≠ Pc.start ph := by
    intro ph hr e
    have hcode : Phase.resolve.code = ph.code := congrArg Pc.phase e
    exact hr (Phase.code_eq_resolve.1 hcode.symm)
  constructor
  · rintro ⟨-, during, -, -⟩
    rw [hpc] at during
    exact during rfl
  · intro h
    constructor <;> rw [hpc]
    · rintro (e | e | e) <;> exact absurd e (hne _ (by decide))
    · exact fun _ => h
    · exact fun e => absurd e (hne _ (by decide))
    · exact fun e => absurd e (hne _ (by decide))

/-- The invariant reads the position, the accumulators, the walk's directions, N_BUTTONS and the layer only. -/
theorem AccumulatorsSum.congr {s t : State} (h : AccumulatorsSum s) (hpc : t.pc = s.pc) (hx : t.x = s.x) (hy : t.y = s.y)
    (hw : ∀ j, t.walkDir j = s.walkDir j) (hp : t.params = s.params) (hl : t.layer = s.layer) : AccumulatorsSum t := by
  have ex : ∀ n, t.sumX n = s.sumX n := fun n => (sums_congr hw n).1
  have ey : ∀ n, t.sumY n = s.sumY n := fun n => (sums_congr hw n).2
  constructor <;> simp only [hpc, hx, hy, hp, hl, ex, ey]
  · exact h.before
  · exact h.during
  · exact h.whole
  · exact h.shown

/-! ## RESOLVE -/

/-- Where the walk leaves button `b`, its sums are those before the next button, or the whole ones. -/
theorem State.HoldsSum.at_nextButton {s : State} {b : BitVec 4} (hb : b.toNat < s.params.nButtons)
    (hn : s.params.nButtons ≤ 15) (h : s.HoldsSum (3 * (b.toNat + 1))) :
    AccumulatorsSum (s.setPc (nextButton s.params.nButtons b)) := by
  have hset : ∀ p, (s.setPc p).HoldsSum (3 * (b.toNat + 1)) := fun p => h.congr (s.walkDir_setPc p) rfl rfl
  unfold nextButton
  split
  case isTrue hmore =>
    have hwalked : (Pc.resolveAt (b + 1) 1).walked = 3 * (b.toNat + 1) := by
      have hnext : (b + 1).toNat = b.toNat + 1 := by bv_omega
      simp only [Pc.walked, Pc.resolveAt, hnext]
      rfl
    rw [accumulatorsSum_resolveAt rfl, hwalked]
    exact hset _
  case isFalse hlast =>
    have hall : b.toNat + 1 = s.params.nButtons := by omega
    rw [hall] at hset
    exact (accumulatorsSum_start (ph := .dpadout) (by decide) rfl).2 (hset _)

/-- Past one slot of a pressed button the sums over that slot too are those the next position asks for. -/
theorem State.HoldsSum.at_nextSlot {s : State} {b : BitVec 4} {slot : BitVec 2} (hb : b.toNat < s.params.nButtons)
    (hn : s.params.nButtons ≤ 15) (hs : slot ≠ 0) (h : s.HoldsSum ((Pc.resolveAt b slot).walked + 1)) :
    AccumulatorsSum (s.setPc (nextSlot s.params.nButtons b slot)) := by
  have hpos : ∀ x : BitVec 2, x ≠ 0 → 0 < x.toNat := by decide
  have hslot := hpos slot hs
  have hwalked : (Pc.resolveAt b slot).walked + 1 = 3 * b.toNat + slot.toNat := by
    simp only [Pc.walked, Pc.resolveAt]
    omega
  rw [hwalked] at h
  unfold nextSlot
  split
  case isTrue hmore =>
    have hnext : (Pc.resolveAt b (slot + 1)).walked = 3 * b.toNat + slot.toNat := by
      have hsucc : (slot + 1).toNat = slot.toNat + 1 := by bv_omega
      simp only [Pc.walked, Pc.resolveAt, hsucc, Nat.add_sub_cancel]
    rw [accumulatorsSum_resolveAt rfl, hnext]
    exact h.congr (s.walkDir_setPc _) rfl rfl
  case isFalse hlast =>
    have hthree : 3 * b.toNat + slot.toNat = 3 * (b.toNat + 1) := by omega
    rw [hthree] at h
    exact h.at_nextButton hb hn

/-- RESOLVE keeps the sums: an unpressed button adds nothing, a pressed one the direction of its slot's word. -/
theorem AccumulatorsSum.execResolve {s u : State} {b : BitVec 4} {slot : BitVec 2} (h : AccumulatorsSum s)
    (hn : s.params.nButtons ≤ 15) (hpc : s.pc = Pc.resolveAt b slot) (hu : execResolve b slot s = .next u) :
    AccumulatorsSum u := by
  have hsum := (accumulatorsSum_resolveAt hpc).1 h
  obtain ⟨hs, hb, hcase⟩ := execResolve_cases hu
  have hslot := slot.isLt
  have hwalked : (Pc.resolveAt b slot).walked = 3 * b.toNat + (slot.toNat - 1) := rfl
  rcases hcase with ⟨hp, rfl⟩ | ⟨hp, w, hw, hword⟩
  · exact (hsum.unpressed (by omega) (by omega) hp).at_nextButton hb hn
  · have hdir := walkDir_pressed hs hb hp hw
    rcases hword with ⟨-, hnone, rfl | ⟨k, -, rfl⟩⟩ | ⟨d, -, hd, rfl⟩ | ⟨-, rfl⟩
    · exact (hsum.skip (hdir.trans hnone)).at_nextSlot hb hn hs
    · have hpressed : (s.emit (.press k)).HoldsSum ((Pc.resolveAt b slot).walked + 1) :=
        (hsum.skip (hdir.trans hnone)).congr (s.walkDir_emit _) rfl rfl
      exact hpressed.at_nextSlot hb hn hs
    · exact (hsum.addDir (by omega) (hdir.trans hd)).at_nextSlot hb hn hs
    · exact (accumulatorsSum_start (ph := .halt) (by decide) rfl).2 trivial

/-! ## The other phases -/

/-- DPADOUT turns the whole sums into their signs and shows the direction that has these increments (R159). -/
theorem State.HoldsSum.after_dpadout {s u : State} (h : s.HoldsSum (3 * s.params.nButtons)) (hu : PhaseEffect s .dpadout u) :
    AccumulatorsSum u := by
  obtain ⟨d, hx, hy, hu⟩ := hu
  obtain ⟨sumx, sumy⟩ := h
  have hwalk : ∀ j, u.walkDir j = s.walkDir j := fun j => by rw [hu]; rfl
  obtain ⟨ex, ey⟩ := sums_congr hwalk (3 * s.params.nButtons)
  subst hu
  refine (accumulatorsSum_start (ph := .commit) (by decide) rfl).2 ⟨?_, ?_, d, rfl, hx, hy⟩
  · exact (toInt_clamp s.x).trans (congrArg Int.sign (sumx.trans ex.symm))
  · exact (toInt_clamp s.y).trans (congrArg Int.sign (sumy.trans ey.symm))

/-- Every phase but RESOLVE keeps the invariant. -/
theorem AccumulatorsSum.phaseEffect {s u : State} {ph : Phase} (h : AccumulatorsSum s) (hpc : s.pc = Pc.start ph)
    (hu : PhaseEffect s ph u) : AccumulatorsSum u := by
  have hr : ph ≠ .resolve := fun e => by subst e; exact hu
  have hat := (accumulatorsSum_start hr hpc).1 h
  have reaches : ∀ {q : Phase}, q ≠ .resolve → u.pc = Pc.start q → u.SumAt q → AccumulatorsSum u :=
    fun hq e => (accumulatorsSum_start hq e).2
  cases ph with
  | resolve => exact absurd rfl hr
  | pinmode | cfgdir | load | begin | commit | halt =>
    cases hu
    exact reaches (by decide) rfl trivial
  | expinit =>
    rcases hu with ⟨-, rfl⟩ | ⟨-, rfl⟩
    · exact reaches (by decide) hpc trivial
    · exact reaches (by decide) rfl trivial
  | cfgexp =>
    obtain ⟨v, rfl, ⟨-, rfl⟩ | ⟨-, -, rfl⟩ | ⟨-, -, -, -, rfl⟩ | ⟨-, -, -, rfl⟩⟩ := hu
    · exact reaches (by decide) hpc trivial
    all_goals exact reaches (by decide) rfl trivial
  | relall =>
    cases hu
    exact reaches (by decide) rfl ⟨rfl, rfl⟩
  | turbo =>
    cases hu
    exact reaches (q := .sampleA) (by decide) rfl hat
  | sampleA =>
    rcases hu with ⟨-, rfl⟩ | ⟨-, rfl⟩
    · exact reaches (by decide) hpc hat
    · exact reaches (q := .sampleB) (by decide) rfl hat
  | sampleB =>
    rcases hu with ⟨-, rfl⟩ | ⟨-, rfl⟩
    · exact reaches (by decide) hpc hat
    · exact (accumulatorsSum_resolveAt (b := 0) (slot := 1) rfl).2 (State.holdsSum_zero hat.1 hat.2)
  | dpadout => exact State.HoldsSum.after_dpadout hat hu

/-- Settles O56: a reset leads out of the cycle, each phase hands its sums to the next, and neither the strobes nor the environment's move matter. -/
theorem stepKeepsTheAccumulatedSum : Obligations.StepKeepsTheAccumulatedSum := by
  intro s t hs h hstep
  have hquiet : AccumulatorsSum s.quiet := h.congr rfl rfl rfl (fun _ => rfl) rfl rfl
  rcases step_effect hstep with ⟨-, rfl⟩ | ⟨-, ⟨ph, u, hpc, hu, rfl⟩ | ⟨b, slot, u, hpc, hu, rfl⟩⟩
  · exact (accumulatorsSum_start (ph := .pinmode) (by decide) rfl).2 trivial
  · exact (hquiet.phaseEffect hpc hu).congr rfl rfl rfl (fun _ => rfl) rfl rfl
  · exact (hquiet.execResolve hs.params.buttons_le hpc hu).congr rfl rfl rfl (fun _ => rfl) rfl rfl

end Sys2Proof.Machine

/-! PROOF. The event stream's grammar, kept by every step (R175). -/

namespace Sys2Proof.Machine

/-! ## One word more, or none -/

/-- A step that emits nothing keeps the grammar if its phases stand at one place of it. -/
theorem StreamFollowsGrammar.keep {s u : State} (h : StreamFollowsGrammar s) (hp : u.params = s.params)
    (hev : u.events = s.events) (hpc : u.pc.streamPos = s.pc.streamPos) : StreamFollowsGrammar u := by
  unfold StreamFollowsGrammar
  rw [hp, hev, hpc]
  exact h

/-- A step that emits one word keeps the grammar if the word leads from the place of the one phase to that of the other. -/
theorem StreamFollowsGrammar.emit {s u : State} {w : EventWord} (h : StreamFollowsGrammar s) (hp : u.params = s.params)
    (hev : u.events = s.events ++ [w]) (hnext : s.pc.streamPos.next s.params.nBtnKeys w = some u.pc.streamPos) :
    StreamFollowsGrammar u := by
  unfold StreamFollowsGrammar at h ⊢
  rw [hp, hev, scanStream_append, h, Option.bind_some, hnext]

/-- Between RELEASE_ALL and SET_DPAD a PRESS of a regular button may come (R175). -/
theorem StreamPos.next_press {n : Nat} {k : KeyConst} (h : k.toNat < n) :
    StreamPos.open_.next n (Event.press k).word = some .open_ := by
  have fields : ∀ k : KeyConst, (Event.press k).word.extractLsb' 5 3 = 2 ∧ (Event.press k).word.extractLsb' 0 5 = k := by
    decide
  obtain ⟨hop, harg⟩ := fields k
  simp only [StreamPos.next, hop, harg, h, and_self, if_true]

/-- The one SET_DPAD closes the cycle's presses. -/
theorem StreamPos.next_setDpad (n : Nat) (d : Dir) : StreamPos.open_.next n (Event.setDpad d).word = some .closed := by
  cases d <;> rfl

/-! ## RESOLVE and the other phases -/

/-- Past a slot the walk is in RESOLVE or at DPADOUT, where the stream is still open. -/
theorem nextButton_streamPos (n : Nat) (b : BitVec 4) : (nextButton n b).streamPos = .open_ := by
  unfold nextButton
  split <;> rfl

theorem nextSlot_streamPos (n : Nat) (b : BitVec 4) (slot : BitVec 2) : (nextSlot n b slot).streamPos = .open_ := by
  unfold nextSlot
  split
  · rfl
  · exact nextButton_streamPos n b

/-- RESOLVE keeps the grammar: a PRESS leaves the stream open, and BADSLOT's DIAG ends it. -/
theorem StreamFollowsGrammar.execResolve {s u : State} {b : BitVec 4} {slot : BitVec 2} (h : StreamFollowsGrammar s)
    (hpc : s.pc = Pc.resolveAt b slot) (hu : execResolve b slot s = .next u) : StreamFollowsGrammar u := by
  have hopen : s.pc.streamPos = .open_ := by rw [hpc]; rfl
  have hslot := (nextSlot_streamPos s.params.nButtons b slot).trans hopen.symm
  obtain ⟨-, -, ⟨-, rfl⟩ | ⟨-, w, -, ⟨-, -, rfl | ⟨k, hk, rfl⟩⟩ | ⟨d, -, -, rfl⟩ | ⟨-, rfl⟩⟩⟩ := execResolve_cases hu
  · exact h.keep rfl rfl ((nextButton_streamPos _ b).trans hopen.symm)
  · exact h.keep rfl rfl hslot
  · refine h.emit (w := (Event.press k).word) rfl rfl ?_
    rw [hopen, StreamPos.next_press hk, State.setPc_pc, nextSlot_streamPos]
  · exact h.keep rfl rfl hslot
  · exact h.emit (w := (Event.diag .badSlot).word) rfl rfl (by rw [hopen]; rfl)

/-- Every phase but RESOLVE keeps the grammar: BEGIN, RELALL, DPADOUT, COMMIT and a fatal entry emit the word that leads to their next place. -/
theorem StreamFollowsGrammar.phaseEffect {s u : State} {ph : Phase} (h : StreamFollowsGrammar s) (hpc : s.pc = Pc.start ph)
    (hu : PhaseEffect s ph u) : StreamFollowsGrammar u := by
  have hat : s.pc.streamPos = (Pc.start ph).streamPos := by rw [hpc]
  cases ph with
  | pinmode | cfgdir | load | turbo | halt =>
    cases hu
    exact h.keep rfl rfl hat.symm
  | expinit | sampleA | sampleB =>
    rcases hu with ⟨-, rfl⟩ | ⟨-, rfl⟩
    · exact h.keep rfl rfl rfl
    · exact h.keep rfl rfl hat.symm
  | cfgexp =>
    obtain ⟨v, rfl, ⟨-, rfl⟩ | ⟨-, -, rfl⟩ | ⟨-, -, -, -, rfl⟩ | ⟨-, -, -, rfl⟩⟩ := hu
    · exact h.keep rfl rfl rfl
    · exact h.keep rfl rfl hat.symm
    · exact h.emit (w := (Event.diag .nonConverge).word) rfl rfl (by rw [hat]; rfl)
    · exact h.keep rfl rfl hat.symm
  | begin =>
    cases hu
    exact h.emit (w := Event.begin.word) rfl rfl (by rw [hat]; rfl)
  | relall =>
    cases hu
    exact h.emit (w := Event.releaseAll.word) rfl rfl (by rw [hat]; rfl)
  | resolve => exact hu.elim
  | dpadout =>
    obtain ⟨d, -, -, rfl⟩ := hu
    exact h.emit (w := (Event.setDpad d).word) rfl rfl (by rw [hat]; exact StreamPos.next_setDpad _ d)
  | commit =>
    cases hu
    exact h.emit (w := Event.commit.word) rfl rfl (by rw [hat]; rfl)

/-- Settles O57: a reset empties the stream, each phase emits what the grammar has at its place, and the strobes and the environment's move are no part of the stream. -/
theorem stepKeepsTheEventGrammar : Obligations.StepKeepsTheEventGrammar := by
  intro s t h hstep
  have hquiet : StreamFollowsGrammar s.quiet := h
  rcases step_effect hstep with ⟨-, rfl⟩ | ⟨-, ⟨ph, u, hpc, hu, rfl⟩ | ⟨b, slot, u, hpc, hu, rfl⟩⟩
  · exact (rfl : scanStream s.params.nBtnKeys [] = some StreamPos.fresh)
  · exact (hquiet.phaseEffect hpc hu).keep rfl rfl rfl
  · exact (hquiet.execResolve hpc hu).keep rfl rfl rfl

end Sys2Proof.Machine

/-! PROOF. RESOLVE's walk and the single steps of the cycle (R153, R166, R167, R170 to R172). -/

namespace Sys2Proof.Machine

/-! ## RESOLVE by the button's level -/

/-- RESOLVE at a button that is not pressed goes on to the next button (R170). -/
theorem exec_resolve_unpressed {s : State} {b : BitVec 4} {slot : BitVec 2} (hs : slot ≠ 0) (hb : b.toNat < s.params.nButtons)
    (hp : s.isPressed b = some false) : exec (.resolve b slot) s = .next (s.setPc (nextButton s.params.nButtons b)) := by
  have hpos : ¬(slot = 0 ∨ s.params.nButtons ≤ b.toNat) := not_or.2 ⟨hs, Nat.not_le.2 hb⟩
  simp only [exec, execResolve, if_neg hpos, hp]

/-- RESOLVE at a pressed button runs the instruction its slot word decodes to, and moves on past a legal one (R153, R170). -/
theorem exec_resolve_pressed {s : State} {b : BitVec 4} {slot : BitVec 2} {w : SlotWord} (hs : slot ≠ 0)
    (hb : b.toNat < s.params.nButtons) (hp : s.isPressed b = some true) (hw : s.readKey slot b = some w) :
    exec (.resolve b slot) s = andThen (exec (decodeSlot s.params.nBtnKeys w) s) fun t =>
      if legal s.params.nBtnKeys w then t.setPc (nextSlot s.params.nButtons b slot) else t := by
  have hpos : ¬(slot = 0 ∨ s.params.nButtons ≤ b.toNat) := not_or.2 ⟨hs, Nat.not_le.2 hb⟩
  rw [← execSlotWord_eq]
  simp only [exec, execResolve, if_neg hpos, hp, hw]

/-- Every slot word answers (R120). -/
theorem exec_decodeSlot_answers (w : SlotWord) (s : State) : ∃ u, exec (decodeSlot s.params.nBtnKeys w) s = .next u := by
  obtain ⟨u, hu, -⟩ := execSlotWord_cases w s
  exact ⟨u, execSlotWord_eq w s ▸ hu⟩

/-- An illegal word leaves the sequencer in HALT (R151, R196). -/
theorem pc_of_illegal {w : SlotWord} {s u : State} (hl : legal s.params.nBtnKeys w = false)
    (hu : exec (decodeSlot s.params.nBtnKeys w) s = .next u) : u.pc = Pc.start .halt := by
  cases (exec_of_illegal hl).symm.trans hu
  rfl

/-- Settles O34: the button's level decides between the two lemmas above, and the word's legality where the second one goes. -/
theorem resolveWalksTheButtons : Obligations.ResolveWalksTheButtons := by
  intro s b slot past hs hb hpast
  have hnext : nextButton s.params.nButtons b = past := hpast.symm
  refine ⟨fun hp => ?_, fun w hp hw => ?_⟩
  · rw [exec_resolve_unpressed hs hb hp, hnext]
    rfl
  · obtain ⟨u, hu⟩ := exec_decodeSlot_answers w s
    refine ⟨u, hu, fun hl => ?_, fun hl => ?_⟩
    · rw [exec_resolve_pressed hs hb hp hw, hu, andThen_next, if_pos hl, nextSlot, hnext]
      rfl
    · rw [exec_resolve_pressed hs hb hp hw, hu, andThen_next, if_neg (Bool.eq_false_iff.1 hl)]
      exact ⟨rfl, pc_of_illegal hl hu⟩

/-- Settles O43: the step fetches RESOLVE with the position's operands, and clearing the strobes hides neither the button nor its slot word. -/
theorem stepRunsTheSlotWord : Obligations.StepRunsTheSlotWord := by
  intro s w hrst hphase hs hb hp hw
  have hpc : s.pc = Pc.resolveAt s.pc.b s.pc.slot := by rw [Pc.resolveAt, Phase.code, ← hphase]
  have hpq : s.quiet.isPressed s.pc.b = some true := (State.isPressed_congr rfl rfl rfl s.pc.b).trans hp
  have hwq : s.quiet.readKey s.pc.slot s.pc.b = some w := (State.readKey_congr rfl rfl s.pc.slot s.pc.b).trans hw
  obtain ⟨u, hu⟩ := exec_decodeSlot_answers w s.quiet
  refine ⟨u, hu, ?_⟩
  rw [step_of_fetch hrst (fetch_resolve hpc), exec_resolve_pressed (s := s.quiet) hs hb hpq hwq, hu, andThen_next, andThen_next]
  by_cases hl : legal s.params.nBtnKeys w = true
  · rw [State.quiet_params, if_pos hl, if_pos hl]
    rfl
  · have hhalt : u.pc = ⟨15, 0, 0⟩ := pc_of_illegal (s := s.quiet) (Bool.eq_false_iff.2 hl) hu
    rw [State.quiet_params, if_neg hl, if_neg hl, ← hhalt]
    rfl

/-! ## No stop short of HALT (R171, R232) -/

/-- Every phase but RESOLVE answers, in every state. -/
theorem exec_phase_answers {ph : Phase} {i : Instr} (hi : instrOfPhase ph = some i) (s : State) : ∃ u, exec i s = .next u := by
  cases ph with
  | resolve => cases hi
  | load =>
    cases hi
    exact ⟨_, execLoad_eq s⟩
  | dpadout =>
    cases hi
    obtain ⟨d, -, -, hexec⟩ := execDpadout_eq s
    exact ⟨_, hexec⟩
  | pinmode | expinit | cfgdir | cfgexp | begin | relall | turbo | sampleA | sampleB | commit | halt =>
    cases hi
    exact ⟨_, rfl⟩

/-- A phase other than RESOLVE has an instruction. -/
theorem instrOfPhase_isSome {ph : Phase} (h : ph ≠ .resolve) : ∃ i, instrOfPhase ph = some i := by
  cases ph with
  | resolve => exact absurd rfl h
  | _ => exact ⟨_, rfl⟩

/-- With all slot registers present, every button's slot can be read. -/
theorem readKey_isSome {s : State} {b : BitVec 4} {slot : BitVec 2} (hkey : s.key.length = 3 * s.params.nButtons)
    (hs : slot ≠ 0) (hb : b.toNat < s.params.nButtons) : ∃ w, s.readKey slot b = some w := by
  have hslot := slot.isLt
  have hindex : b.toNat * 3 + (slot.toNat - 1) < s.key.length := by omega
  exact ⟨_, (readKey_eq hs hb).trans (List.getElem?_eq_getElem hindex)⟩

/-- RESOLVE answers at every button and slot that exist. -/
theorem exec_resolve_answers {s : State} {b : BitVec 4} {slot : BitVec 2} (hp : LegalParams s.params)
    (hkey : s.key.length = 3 * s.params.nButtons) (hs : slot ≠ 0) (hb : b.toNat < s.params.nButtons) :
    ∃ u, exec (.resolve b slot) s = .next u := by
  obtain ⟨v, hv⟩ := isPressed_isSome hp hb
  cases v with
  | false => exact ⟨_, exec_resolve_unpressed hs hb hv⟩
  | true =>
    obtain ⟨w, hw⟩ := readKey_isSome hkey hs hb
    obtain ⟨u, hu⟩ := exec_decodeSlot_answers w s
    rw [exec_resolve_pressed hs hb hv hw, hu]
    exact ⟨_, rfl⟩

/-- Settles O54: a legal position is that of a phase, which always answers, or of a slot register that exists. -/
theorem soundStatesStepOn : Obligations.SoundStatesStepOn := by
  intro s hsound hkey
  by_cases hrst : s.env.rst = true
  · exact ⟨_, step_of_rst hrst⟩
  have hlow := Bool.eq_false_iff.2 hrst
  have answers : ∀ {i}, s.fetch = .ok i → (∃ u, exec i s.quiet = .next u) → ∃ t, step s = .next t := by
    rintro i hfetch ⟨u, hu⟩
    exact ⟨u.advanceEnv, by rw [step_of_fetch hlow hfetch, hu, andThen_next]⟩
  rcases Pc.legal_cases hsound.pc with ⟨ph, hph, hpc⟩ | ⟨b, slot, hpc, hs, hb⟩
  · obtain ⟨i, hi⟩ := instrOfPhase_isSome hph
    exact answers (fetch_start hpc hi) (exec_phase_answers hi s.quiet)
  · exact answers (fetch_resolve hpc) (exec_resolve_answers (s := s.quiet) hsound.params hkey hs hb)

/-! ## RELALL, TURBO and COMMIT (R166, R167, R172) -/

/-- Settles O32: RELALL is one RELEASE_ALL, which empties the layer's key set, with x and y cleared. -/
theorem relallClearsTheCycle : Obligations.RelallClearsTheCycle := fun _ => rfl

/-- Settles O37: COMMIT is one event, by which the layer takes its keys and direction for the report. -/
theorem commitDeliversTheReport : Obligations.CommitDeliversTheReport := fun _ => rfl

/-- TURBO when its period has passed. -/
theorem exec_turbo_due {s : State} (h : s.params.turboPeriodTicks ≤ elapsed s.env.now s.turboTs) :
    exec .turbo s = .next { s with turboPhase := !s.turboPhase, turboTs := s.env.now, pc := Pc.start .sampleA } := by
  simp only [exec, execTurbo, State.turboPhaseNext, State.turboTsNext, turboDue, h, decide_true, if_true]

/-- TURBO before its period has passed. -/
theorem exec_turbo_early {s : State} (h : elapsed s.env.now s.turboTs < s.params.turboPeriodTicks) :
    exec .turbo s = .next (s.setPc (Pc.start .sampleA)) := by
  have hnot : ¬s.params.turboPeriodTicks ≤ elapsed s.env.now s.turboTs := Nat.not_le.2 h
  simp only [exec, execTurbo, State.turboPhaseNext, State.turboTsNext, turboDue, hnot, decide_false, Bool.false_eq_true, if_false]
  rfl

/-- Settles O33: the two sides of the period. -/
theorem turboTogglesAtItsPeriod : Obligations.TurboTogglesAtItsPeriod :=
  fun _ => ⟨exec_turbo_due, exec_turbo_early⟩

end Sys2Proof.Machine

/-! PROOF. What a legal slot word does, word by word (R117 to R123, R153). -/

namespace Sys2Proof.Machine

/-- A legal word of a regular button is its PRESS, but in the off phase not if it has the turbo tag (R122, R123). -/
theorem exec_of_button {w : SlotWord} {s : State} (hkey : isRegularButton s.params.nBtnKeys (slotKey s.params.nBtnKeys w) = true) :
    exec (decodeSlot s.params.nBtnKeys w) s =
      .next (if slotT s.params.nBtnKeys w = false ∨ s.turboPhase = true
        then s.emit (.press ((slotKey s.params.nBtnKeys w).setWidth 5)) else s) := by
  have hlt := of_decide_eq_true hkey
  unfold decodeSlot
  cases slotT s.params.nBtnKeys w with
  | false => rw [if_neg Bool.false_ne_true, decodePlainKey_button hlt, if_pos (.inl rfl)]; rfl
  | true =>
    rw [if_pos rfl, decodeTurboKey_button hlt]
    cases hphase : s.turboPhase with
    | false => rw [exec_btnT_off _ hphase, if_neg (by decide)]
    | true => rw [exec_btnT_on _ hphase, if_pos (.inr rfl)]

/-- A key in the D-pad's range has a direction. -/
theorem slotDir_isSome {n : Nat} {w : SlotWord} (hl : legal n w = true) (hlo : n ≤ (slotKey n w).toNat)
    (hhi : (slotKey n w).toNat < n + 9) : (slotDir n w).isSome = true := by
  have hdpad : isDPadDirection n (slotKey n w) = true := by
    simp only [isDPadDirection, dpBase, hlo, hhi, decide_true, Bool.and_self]
  have hoffset : (slotKey n w).toNat - n < 9 := by omega
  rw [slotDir, hl, hdpad, Bool.and_self, if_pos rfl, Dir.ofOffset_isSome, decide_eq_true_iff, BitVec.toNat_ofNat, dpBase]
  omega

/-- A legal word that is neither a button nor a direction is a stick or NOOP, and does nothing (R118, R119, R121). -/
theorem exec_of_idle {w : SlotWord} {s : State} (hl : legal s.params.nBtnKeys w = true)
    (hkey : isRegularButton s.params.nBtnKeys (slotKey s.params.nBtnKeys w) = false)
    (hdir : slotDir s.params.nBtnKeys w = none) : exec (decodeSlot s.params.nBtnKeys w) s = .next s := by
  generalize hn : s.params.nBtnKeys = n at hl hkey hdir
  have hlo : n ≤ (slotKey n w).toNat := Nat.not_lt.1 (of_decide_eq_false hkey)
  have hlegal := hl
  simp only [legal, hkey, Bool.or_false, Bool.and_eq_true, decide_eq_true_eq, Bool.not_eq_true'] at hlegal
  obtain ⟨hmax, htag⟩ := hlegal
  have hidle : n + 9 ≤ (slotKey n w).toNat := by
    by_contra hhi
    have hsome := slotDir_isSome hl hlo (Nat.not_le.1 hhi)
    rw [hdir] at hsome
    cases hsome
  obtain ⟨m, hm⟩ : ∃ m, (slotKey n w).toNat = n + m := Nat.exists_eq_add_of_le hlo
  have hlength : m < fixedKeys.length := by
    unfold nKeys at hmax
    change m < 28
    omega
  rw [decodeSlot, htag, if_neg Bool.false_ne_true, decodePlainKey_fixed hlength hm]
  exact exec_fixed_idle (by omega) hlength s

end Sys2Proof.Machine

/-! PROOF. The steps of one cycle compose to the function of R173. -/

namespace Sys2Proof.Machine

/-! ## Runs and what they ask of the environment -/

/-- From `s` at most `n` steps lead to a state that meets `P`. -/
def EndsWithin (n : Nat) (P : State → Prop) (s : State) : Prop :=
  ∃ k t, k ≤ n ∧ Host.Core.run Sys2Proof.core k s = .next t ∧ P t

theorem EndsWithin.here {n : Nat} {P : State → Prop} {s : State} (h : P s) : EndsWithin n P s :=
  ⟨0, s, n.zero_le, rfl, h⟩

theorem EndsWithin.step {n : Nat} {P : State → Prop} {s u : State} (hstep : step s = .next u) (h : EndsWithin n P u) :
    EndsWithin (n + 1) P s := by
  obtain ⟨k, t, hk, hrun, ht⟩ := h
  exact ⟨k + 1, t, Nat.succ_le_succ hk, (run_of_step hstep).trans hrun, ht⟩

/-- `rst` is low now, and in each of the next `n` moves at least, which the script holds. -/
structure Env.LowFor (e : Env) (n : Nat) : Prop where
  rst : e.rst = false
  moves : ∀ m ∈ e.script, m.rst = false
  length : n ≤ e.script.length

/-- A move that the script holds. -/
theorem Env.advance_of_script {e : Env} {m : EnvMove} {l : List EnvMove} (h : e.script = m :: l) :
    e.advance =
      { now := e.now + m.ticks, rst := m.rst, expDone := m.expDone, expData := m.expData, cfgPin := m.cfgPin,
        script := l, draws := e.draws + 1 } := by
  simp only [Env.advance, Env.move, h, List.tail_cons]

theorem Env.LowFor.advance {e : Env} {n : Nat} (h : e.LowFor (n + 1)) : e.advance.LowFor n := by
  obtain ⟨-, hmoves, hlength⟩ := h
  cases hscript : e.script with
  | nil =>
    rw [hscript] at hlength
    cases hlength
  | cons m l =>
    rw [hscript] at hmoves hlength
    rw [Env.advance_of_script hscript]
    exact ⟨hmoves m List.mem_cons_self, fun q hq => hmoves q (List.mem_cons_of_mem m hq), Nat.le_of_succ_le_succ hlength⟩

/-- A step whose instruction answers. -/
theorem step_of_exec {s u : State} {i : Instr} (hrst : s.env.rst = false) (hfetch : s.fetch = .ok i)
    (hexec : exec i s.quiet = .next u) : step s = .next u.advanceEnv := by
  rw [step_of_fetch hrst hfetch, hexec, andThen_next]

/-! ## The state but for the ports and the layer's copy -/

/-- The state with fixed values in the ports and the layer's copy: what R173 speaks of, and the event stream. -/
def State.offPorts (s : State) : State :=
  { s with evt := 0, evtValid := false, expOp := .none, layer := Layer.reset, env := Env.reset }

/-- Two states that agree off the ports differ in the ports and the layer's copy only. -/
theorem eq_of_offPorts {s t : State} (h : t.offPorts = s.offPorts) :
    t = { s with evt := t.evt, evtValid := t.evtValid, expOp := t.expOp, layer := t.layer, env := t.env } :=
  congrArg (fun q : State =>
    { q with evt := t.evt, evtValid := t.evtValid, expOp := t.expOp, layer := t.layer, env := t.env }) h

/-- The walk before its first word: RELALL has cleared the accumulators and emitted RELEASE_ALL (R166). -/
def Walk.start : Walk := { x := 0, y := 0, ev := [0x20], halted := false }

/-- The state in which the walk stands at position `p` with `a` made so far, `ev` being the stream before the cycle. -/
def State.walkAt (r : State) (ev : List EventWord) (a : Walk) (p : Pc) : State :=
  { r with x := a.x, y := a.y, events := ev ++ a.ev, pc := p }

/-- `u` is the state of the walk, but for the ports and the layer's copy. -/
def State.Follows (u r : State) (ev : List EventWord) (a : Walk) (p : Pc) : Prop :=
  u.offPorts = (r.walkAt ev a p).offPorts

section Follows

variable {u r : State} {ev : List EventWord} {a : Walk} {p : Pc}

theorem State.Follows.offPorts (h : u.Follows r ev a p) : u.offPorts = (r.walkAt ev a p).offPorts := h

theorem State.Follows.params (h : u.Follows r ev a p) : u.params = r.params := (congrArg State.params h.offPorts :)

theorem State.Follows.pc (h : u.Follows r ev a p) : u.pc = p := (congrArg State.pc h.offPorts :)

theorem State.Follows.turboPhase (h : u.Follows r ev a p) : u.turboPhase = r.turboPhase := (congrArg State.turboPhase h.offPorts :)

theorem State.Follows.xy (h : u.Follows r ev a p) : u.x = a.x ∧ u.y = a.y :=
  ⟨(congrArg State.x h.offPorts :), (congrArg State.y h.offPorts :)⟩

theorem State.Follows.isPressed (h : u.Follows r ev a p) (b : BitVec 4) : u.isPressed b = r.isPressed b :=
  State.isPressed_congr h.params ((congrArg State.bankA h.offPorts :)) ((congrArg State.bankB h.offPorts :)) b

theorem State.Follows.readKey (h : u.Follows r ev a p) (slot : BitVec 2) (b : BitVec 4) :
    u.readKey slot b = r.readKey slot b :=
  State.readKey_congr h.params ((congrArg State.key h.offPorts :)) slot b

theorem State.Follows.quiet (h : u.Follows r ev a p) : u.quiet.Follows r ev a p := h

theorem State.Follows.advanceEnv (h : u.Follows r ev a p) : u.advanceEnv.Follows r ev a p := h

theorem State.Follows.setPc (h : u.Follows r ev a p) (q : Pc) : (u.setPc q).Follows r ev a q :=
  congrArg (State.setPc · q) h

theorem State.Follows.setXY (h : u.Follows r ev a p) (x y : Acc) : (u.setXY x y).Follows r ev { a with x := x, y := y } p :=
  congrArg (State.setXY x y) h

theorem State.Follows.emit (h : u.Follows r ev a p) (e : Event) : (u.emit e).Follows r ev { a with ev := a.ev ++ [e.word] } p := by
  have happend : (u.emit e).offPorts = { (r.walkAt ev a p).offPorts with events := (ev ++ a.ev) ++ [e.word] } :=
    congrArg (fun q : State => { q with events := q.events ++ [e.word] }) h
  rw [List.append_assoc] at happend
  exact happend

end Follows

/-! ## The walk's words -/

/-- A halted walk stays as it is (R173). -/
theorem foldl_word_halted {n : Nat} {phase : Bool} {a : Walk} (h : a.halted = true) (ws : List SlotWord) :
    ws.foldl (Walk.word n phase) a = a := by
  induction ws with
  | nil => rfl
  | cons w ws ih => rw [List.foldl_cons, Walk.word, if_pos h, ih]

theorem Walk.word_of_illegal {n : Nat} {phase : Bool} {a : Walk} {w : SlotWord} (ha : a.halted = false) (hl : legal n w = false) :
    a.word n phase w = { a with ev := a.ev ++ [0xE3], halted := true } := by
  rw [Walk.word, if_neg (Bool.eq_false_iff.1 ha), if_pos hl]

/-- The PRESS event of a button key, as R173 writes it. -/
theorem word_press_slotKey {n : Nat} {k : KeyId} (hn : n ≤ 32) (h : k.toNat < n) :
    (Event.press (k.setWidth 5)).word = 0x40 + k.setWidth 8 := by
  rw [word_press]
  congr 1
  apply BitVec.eq_of_toNat_eq
  rw [BitVec.toNat_setWidth, toNat_setWidth_of_button hn h, BitVec.toNat_setWidth]

/-- A legal slot word does to the machine what `Walk.word` does to the walk. -/
theorem State.Follows.exec_word {u r : State} {ev : List EventWord} {a : Walk} {p : Pc} {w : SlotWord}
    (h : u.Follows r ev a p) (hn : r.params.nBtnKeys ≤ 32) (ha : a.halted = false)
    (hl : legal r.params.nBtnKeys w = true) :
    ∃ v, exec (decodeSlot r.params.nBtnKeys w) u = .next v ∧
      v.Follows r ev (a.word r.params.nBtnKeys r.turboPhase w) p ∧
      (a.word r.params.nBtnKeys r.turboPhase w).halted = false ∧ v.env = u.env := by
  rw [Walk.word, if_neg (Bool.eq_false_iff.1 ha), if_neg (Bool.eq_false_iff.not_left.2 hl), ← h.turboPhase]
  generalize hparams : r.params.nBtnKeys = n at hn hl
  have hu : u.params.nBtnKeys = n := by rw [h.params, hparams]
  subst hu
  by_cases hkey : isRegularButton u.params.nBtnKeys (slotKey u.params.nBtnKeys w) = true
  · rw [if_pos hkey, exec_of_button hkey, ← word_press_slotKey hn (of_decide_eq_true hkey)]
    split
    · exact ⟨_, rfl, h.emit _, ha, rfl⟩
    · exact ⟨_, rfl, h, ha, rfl⟩
  · rw [if_neg hkey]
    cases hdir : slotDir u.params.nBtnKeys w with
    | none => exact ⟨_, exec_of_idle hl (Bool.eq_false_iff.2 hkey) hdir, h, ha, rfl⟩
    | some d =>
      have hsum : (u.addDir d).Follows r ev { a with x := a.x + d.dx, y := a.y + d.dy } p := by
        rw [← h.xy.1, ← h.xy.2]
        exact h.setXY (u.x + d.dx) (u.y + d.dy)
      exact ⟨_, exec_of_slotDir hdir, hsum, ha, rfl⟩


/-! ## The walk's path -/

/-- With the accepted levels and slot registers of `r` the walk from position `p` meets the words `ws` on its way to DPADOUT, in at most `m` steps (R170). -/
inductive WalkFrom (r : State) : Pc → List SlotWord → Nat → Prop where
  | done (m : Nat) : WalkFrom r (Pc.start .dpadout) [] m
  | skip {b : BitVec 4} {slot : BitVec 2} {ws : List SlotWord} {m : Nat} (hs : slot ≠ 0) (hb : b.toNat < r.params.nButtons)
      (hp : r.isPressed b = some false) (rest : WalkFrom r (nextButton r.params.nButtons b) ws m) :
      WalkFrom r (Pc.resolveAt b slot) ws (m + 1)
  | word {b : BitVec 4} {slot : BitVec 2} {w : SlotWord} {ws : List SlotWord} {m : Nat} (hs : slot ≠ 0)
      (hb : b.toNat < r.params.nButtons) (hp : r.isPressed b = some true) (hw : r.readKey slot b = some w)
      (rest : WalkFrom r (nextSlot r.params.nButtons b slot) ws m) : WalkFrom r (Pc.resolveAt b slot) (w :: ws) (m + 1)

theorem WalkFrom.mono {r : State} {p : Pc} {ws : List SlotWord} {m : Nat} (h : WalkFrom r p ws m) :
    ∀ {k}, m ≤ k → WalkFrom r p ws k := by
  induction h with
  | done m => exact fun _ => .done _
  | skip hs hb hp _ ih =>
    intro k hk
    obtain ⟨k, rfl⟩ := Nat.exists_eq_add_of_le' (Nat.one_le_of_lt hk)
    exact .skip hs hb hp (ih (Nat.le_of_succ_le_succ hk))
  | word hs hb hp hw _ ih =>
    intro k hk
    obtain ⟨k, rfl⟩ := Nat.exists_eq_add_of_le' (Nat.one_le_of_lt hk)
    exact .word hs hb hp hw (ih (Nat.le_of_succ_le_succ hk))

/-- The words that the walk meets at button `i`. -/
def State.buttonWords (r : State) (i : Nat) : List SlotWord :=
  if r.isPressed (BitVec.ofNat 4 i) = some true then (r.key.drop (3 * i)).take 3 else []

theorem pressedWords_eq (r : State) : r.pressedWords = (List.range r.params.nButtons).flatMap r.buttonWords := rfl

/-- The three slot registers of a button, in order (R11). -/
theorem buttonWords_of_pressed {r : State} {b : BitVec 4} {w1 w2 w3 : SlotWord} (hb : b.toNat < r.params.nButtons)
    (hp : r.isPressed b = some true) (h1 : r.readKey 1 b = some w1) (h2 : r.readKey 2 b = some w2)
    (h3 : r.readKey 3 b = some w3) : r.buttonWords b.toNat = [w1, w2, w3] := by
  rw [readKey_eq (by decide) hb, Nat.mul_comm] at h1 h2 h3
  change r.key[3 * b.toNat]? = some w1 at h1
  change r.key[3 * b.toNat + 1]? = some w2 at h2
  change r.key[3 * b.toNat + 2]? = some w3 at h3
  obtain ⟨l1, e1⟩ := List.getElem?_eq_some_iff.1 h1
  obtain ⟨l2, e2⟩ := List.getElem?_eq_some_iff.1 h2
  obtain ⟨l3, e3⟩ := List.getElem?_eq_some_iff.1 h3
  have hpressed : r.isPressed (BitVec.ofNat 4 b.toNat) = some true := by rw [BitVec.ofNat_toNat, BitVec.setWidth_eq, hp]
  rw [State.buttonWords, if_pos hpressed, List.drop_eq_getElem_cons l1, List.drop_eq_getElem_cons l2,
    List.drop_eq_getElem_cons l3]
  exact congrArg₂ List.cons e1 (congrArg₂ List.cons e2 (congrArg₂ List.cons e3 rfl))

/-- One button of the walk, from its first slot: three steps at the most. -/
theorem WalkFrom.button {r : State} {b : BitVec 4} {ws : List SlotWord} {m : Nat} (hparams : LegalParams r.params)
    (hkey : r.key.length = 3 * r.params.nButtons) (hb : b.toNat < r.params.nButtons)
    (rest : WalkFrom r (nextButton r.params.nButtons b) ws m) :
    WalkFrom r (Pc.resolveAt b 1) (r.buttonWords b.toNat ++ ws) (m + 3) := by
  obtain ⟨v, hp⟩ := isPressed_isSome hparams hb
  cases v with
  | false =>
    have hnone : r.buttonWords b.toNat = [] := by
      rw [State.buttonWords, BitVec.ofNat_toNat, BitVec.setWidth_eq, hp]
      rfl
    rw [hnone]
    exact .skip (by decide) hb hp (rest.mono (Nat.le_add_right m 2))
  | true =>
    obtain ⟨w1, h1⟩ := readKey_isSome (slot := 1) hkey (by decide) hb
    obtain ⟨w2, h2⟩ := readKey_isSome (slot := 2) hkey (by decide) hb
    obtain ⟨w3, h3⟩ := readKey_isSome (slot := 3) hkey (by decide) hb
    rw [buttonWords_of_pressed hb hp h1 h2 h3]
    exact .word (by decide) hb hp h1 (.word (by decide) hb hp h2 (.word (by decide) hb hp h3 rest))

/-- Where the walk enters button `i`; past the last button it is at DPADOUT. -/
def buttonPos (n i : Nat) : Pc := if i < n then Pc.resolveAt (BitVec.ofNat 4 i) 1 else Pc.start .dpadout

theorem nextButton_eq_buttonPos (n : Nat) (b : BitVec 4) : nextButton n b = buttonPos n (b.toNat + 1) := by
  rw [nextButton, buttonPos, BitVec.ofNat_add, BitVec.ofNat_toNat, BitVec.setWidth_eq]
  rfl

/-- From button `i` on, the walk meets the words of the buttons from `i` on. -/
theorem walkFrom_buttonPos {r : State} (hparams : LegalParams r.params) (hkey : r.key.length = 3 * r.params.nButtons)
    {i : Nat} (hi : i ≤ r.params.nButtons) :
    WalkFrom r (buttonPos r.params.nButtons i) (((List.range r.params.nButtons).drop i).flatMap r.buttonWords)
      (3 * (r.params.nButtons - i)) := by
  induction hi using Nat.decreasingInduction with
  | self =>
    rw [buttonPos, if_neg (Nat.lt_irrefl _), List.drop_of_length_le (by rw [List.length_range])]
    exact .done _
  | of_succ i hi ih =>
    have hmax := hparams.buttons_le
    have hb : (BitVec.ofNat 4 i).toNat = i := by
      rw [BitVec.toNat_ofNat]
      omega
    have hlength : i < (List.range r.params.nButtons).length := by rwa [List.length_range]
    have hsteps : 3 * (r.params.nButtons - i) = 3 * (r.params.nButtons - (i + 1)) + 3 := by omega
    rw [buttonPos, if_pos hi, List.drop_eq_getElem_cons hlength, List.getElem_range, List.flatMap_cons, hsteps]
    have hbutton := WalkFrom.button (b := BitVec.ofNat 4 i) (ws := ((List.range r.params.nButtons).drop (i + 1)).flatMap r.buttonWords)
      hparams hkey (by rwa [hb]) (by rw [nextButton_eq_buttonPos, hb]; exact ih)
    rwa [hb] at hbutton

/-- The whole walk, from the position SAMPLE.B leaves (R103, R170). -/
theorem walkFrom_start {r : State} (hparams : LegalParams r.params) (hkey : r.key.length = 3 * r.params.nButtons) :
    WalkFrom r (Pc.resolveAt 0 1) r.pressedWords (3 * r.params.nButtons) := by
  have hfirst : buttonPos r.params.nButtons 0 = Pc.resolveAt 0 1 :=
    if_pos (Nat.lt_of_lt_of_le (by decide) hparams.buttons_ge)
  have h := walkFrom_buttonPos hparams hkey (Nat.zero_le _)
  rwa [hfirst] at h

/-! ## From the walk to the end of the cycle -/

/-- The state and the events that a walk's result `w` gives the cycle (R173). -/
def State.walkEnd (r : State) (w : Walk) : State × List EventWord :=
  if w.halted then ({ r with x := w.x, y := w.y, fault := 3, pc := ⟨15, 0, 0⟩ }, w.ev)
  else
    let d := ((dlut (clamp w.x) (clamp w.y)).map Dir.offset).getD 0
    ({ r with x := clamp w.x, y := clamp w.y, pc := ⟨8, 0, 0⟩ }, w.ev ++ [0x60 + d.setWidth 8, 0x80])

theorem cycle_eq_walkEnd (s : State) (tT : Time) (rawA : Byte) (tA : Time) (rawB : Byte) (tB : Time) :
    s.cycle tT rawA tA rawB tB =
      (s.cycleSampled tT rawA tA rawB tB).walkEnd
        ((s.cycleSampled tT rawA tA rawB tB).pressedWords.foldl
          (Walk.word s.params.nBtnKeys (s.cycleSampled tT rawA tA rawB tB).turboPhase)
          Walk.start) := rfl

/-- `t` is the end of a cycle whose walk's result is `w`: the last step has emitted COMMIT or DIAG. -/
def CycleEnd (r : State) (ev : List EventWord) (w : Walk) (t : State) : Prop :=
  t.offPorts = ({ (r.walkEnd w).1 with events := ev ++ (r.walkEnd w).2 } : State).offPorts ∧ t.evtValid = true

/-- BADSLOT ends the cycle in HALT (R151, R196). -/
theorem State.Follows.fatal {u r : State} {ev : List EventWord} {a : Walk} {p : Pc} (h : u.Follows r ev a p) :
    CycleEnd r ev { a with ev := a.ev ++ [0xE3], halted := true } (u.fatal .badSlot) :=
  ⟨(congrArg (fun q : State => { q with fault := 3, pc := ⟨15, 0, 0⟩ }) (h.emit (.diag .badSlot)).offPorts :), rfl⟩

/-- DPADOUT looks up the direction of the clamped accumulators (R159). -/
theorem exec_dpadout_of_dlut {s : State} {d : Dir} (h : dlut (clamp s.x) (clamp s.y) = some d) :
    exec .dpadout s = .next (((s.setXY (clamp s.x) (clamp s.y)).emit (.setDpad d)).setPc (Pc.start .commit)) := by
  simp only [exec, execDpadout, h]

/-- DPADOUT and COMMIT end the cycle. -/
theorem State.Follows.dpadout_commit {u r : State} {ev : List EventWord} {a : Walk} {m : Nat}
    (h : u.Follows r ev a (Pc.start .dpadout)) (ha : a.halted = false) (hlow : u.env.LowFor (m + 2)) :
    EndsWithin (m + 2) (CycleEnd r ev a) u := by
  obtain ⟨d, hd, -, -⟩ := dlut_clamp a.x a.y
  have hdu : dlut (clamp u.x) (clamp u.y) = some d := by rw [h.xy.1, h.xy.2, hd]
  have hshown := (((h.quiet.setXY (clamp u.x) (clamp u.y)).emit (.setDpad d)).setPc (Pc.start .commit)).advanceEnv
  have hcommitted := ((hshown.quiet.emit .commit).setPc (Pc.start .relall)).advanceEnv
  refine .step (step_of_exec hlow.rst (fetch_start h.pc rfl) (exec_dpadout_of_dlut hdu))
    (.step (step_of_exec hlow.advance.rst (fetch_start hshown.pc rfl) rfl) (.here ⟨hcommitted.offPorts.trans ?_, rfl⟩))
  rw [State.walkEnd, if_neg (Bool.eq_false_iff.1 ha), hd, h.xy.1, h.xy.2, word_setDpad, List.append_assoc]
  rfl

/-- From any position of the walk the machine makes the rest of it as `Walk.word` does, and ends the cycle. -/
theorem WalkFrom.endsWithin {r : State} {ev : List EventWord} {p : Pc} {ws : List SlotWord} {m : Nat}
    (h : WalkFrom r p ws m) (hn : r.params.nBtnKeys ≤ 32) {u : State} {a : Walk} (hu : u.Follows r ev a p)
    (ha : a.halted = false) (hlow : u.env.LowFor (m + 2)) :
    EndsWithin (m + 2) (CycleEnd r ev (ws.foldl (Walk.word r.params.nBtnKeys r.turboPhase) a)) u := by
  induction h generalizing u a with
  | done m => exact hu.dpadout_commit ha hlow
  | @skip b slot ws m hs hb hp _ ih =>
    have hexec := exec_resolve_unpressed (s := u.quiet) hs (by rwa [hu.quiet.params]) ((hu.quiet.isPressed b).trans hp)
    rw [hu.quiet.params] at hexec
    exact .step (step_of_exec hlow.rst (fetch_resolve hu.pc) hexec) (ih (hu.quiet.setPc _).advanceEnv ha hlow.advance)
  | @word b slot w ws m hs hb hp hw _ ih =>
    have hexec := exec_resolve_pressed (s := u.quiet) hs (by rwa [hu.quiet.params]) ((hu.quiet.isPressed b).trans hp)
      ((hu.quiet.readKey slot b).trans hw)
    rw [hu.quiet.params] at hexec
    rw [List.foldl_cons]
    by_cases hl : legal r.params.nBtnKeys w = true
    · obtain ⟨v, hv, hfollows, hgoing, henv⟩ := hu.quiet.exec_word hn ha hl
      rw [hv, andThen_next, if_pos hl] at hexec
      refine .step (step_of_exec hlow.rst (fetch_resolve hu.pc) hexec) (ih (hfollows.setPc _).advanceEnv hgoing ?_)
      rw [State.advanceEnv_env, State.setPc_env, henv]
      exact hlow.advance
    · have hillegal := Bool.eq_false_iff.2 hl
      have hfatal := exec_of_illegal (w := w) (s := u.quiet) (by rwa [hu.quiet.params])
      rw [hu.quiet.params] at hfatal
      rw [hfatal, andThen_next, if_neg hl] at hexec
      rw [Walk.word_of_illegal ha hillegal, foldl_word_halted rfl]
      exact .step (step_of_exec hlow.rst (fetch_resolve hu.pc) hexec) (.here hu.quiet.fatal)

/-! ## The steps before the walk -/

/-- RELALL starts the cycle with nothing made but its own event (R166). -/
theorem step_relall {s : State} (hrst : s.env.rst = false) (hpc : s.pc = Pc.start .relall) :
    ∃ v, step s = .next v ∧ v.env = s.env.advance ∧
      v.Follows s s.events Walk.start (Pc.start .turbo) :=
  ⟨_, step_of_exec hrst (fetch_start hpc rfl) rfl, rfl, rfl⟩

/-- TURBO_PHASE and TURBO_TS after a TURBO step at time `t` (R167). -/
def State.afterTurbo (r : State) (t : Time) : State :=
  { r with
    turboPhase := if r.params.turboPeriodTicks ≤ elapsed t r.turboTs then !r.turboPhase else r.turboPhase
    turboTs := if r.params.turboPeriodTicks ≤ elapsed t r.turboTs then t else r.turboTs }

section Before

variable {u r : State} {ev : List EventWord} {a : Walk}

theorem State.Follows.step_turbo (h : u.Follows r ev a (Pc.start .turbo)) (hrst : u.env.rst = false) :
    ∃ v, step u = .next v ∧ v.env = u.env.advance ∧ v.Follows (r.afterTurbo u.env.now) ev a (Pc.start .sampleA) := by
  have hafter : (u.afterTurbo u.env.now).Follows (r.afterTurbo u.env.now) ev a (Pc.start .turbo) :=
    congrArg (State.afterTurbo · u.env.now) h
  have hexec : exec .turbo u.quiet = .next ((u.quiet.afterTurbo u.env.now).setPc (Pc.start .sampleA)) := by
    by_cases hdue : u.params.turboPeriodTicks ≤ elapsed u.env.now u.turboTs
    · rw [exec_turbo_due (s := u.quiet) hdue]
      simp [State.afterTurbo, State.setPc, hdue]
    · rw [exec_turbo_early (s := u.quiet) (Nat.not_le.1 hdue)]
      simp [State.afterTurbo, State.setPc, hdue]
  exact ⟨_, step_of_exec hrst (fetch_start h.pc rfl) hexec, rfl, (hafter.setPc _).quiet.advanceEnv⟩

theorem State.Follows.step_sampleA (h : u.Follows r ev a (Pc.start .sampleA)) (hrst : u.env.rst = false)
    (hdone : u.env.expDone = true) :
    ∃ v, step u = .next v ∧ v.env = u.env.advance ∧
      v.Follows { r with bankA := debounce r.params.debounceTicks r.bankA u.env.expData u.env.now } ev a
        (Pc.start .sampleB) :=
  ⟨_, step_of_exec hrst (fetch_start h.pc rfl) (exec_sampleA_answered (s := u.quiet) hdone), rfl,
    (congrArg (fun q : State => { q with
      bankA := debounce q.params.debounceTicks q.bankA u.env.expData u.env.now, pc := Pc.start .sampleB }) h.offPorts :)⟩

theorem State.Follows.step_sampleB (h : u.Follows r ev a (Pc.start .sampleB)) (hrst : u.env.rst = false)
    (hdone : u.env.expDone = true) :
    ∃ v, step u = .next v ∧ v.env = u.env.advance ∧
      v.Follows { r with bankB := debounce r.params.debounceTicks r.bankB u.env.expData u.env.now } ev a
        (Pc.resolveAt 0 1) :=
  ⟨_, step_of_exec hrst (fetch_start h.pc rfl) (exec_sampleB_answered (s := u.quiet) hdone), rfl,
    (congrArg (fun q : State => { q with
      bankB := debounce q.params.debounceTicks q.bankB u.env.expData u.env.now, pc := Pc.resolveAt 0 1 }) h.offPorts :)⟩

end Before

/-- RELALL, TURBO and the two SAMPLE steps bring the machine to the walk of `cycleSampled`, with the answers of the script's first three moves. -/
theorem reaches_walk {s : State} {m1 m2 m3 : EnvMove} {rest : List EnvMove} {tT tA tB : Time} {n : Nat}
    (hpc : s.pc = Pc.start .relall) (hlow : s.env.LowFor (n + 4)) (hscript : s.env.script = m1 :: m2 :: m3 :: rest)
    (hdone2 : m2.expDone = true) (hdone3 : m3.expDone = true) (htT : tT = s.env.now + m1.ticks) (htA : tA = tT + m2.ticks)
    (htB : tB = tA + m3.ticks) :
    ∃ u, u.Follows (s.cycleSampled tT m2.expData tA m3.expData tB) s.events Walk.start (Pc.resolveAt 0 1) ∧
      u.env.LowFor n ∧ ∀ P, EndsWithin n P u → EndsWithin (n + 4) P s := by
  have e1 := Env.advance_of_script hscript
  have e2 := Env.advance_of_script (e := s.env.advance) (m := m2) (l := m3 :: rest) (by rw [e1])
  have e3 := Env.advance_of_script (e := s.env.advance.advance) (m := m3) (l := rest) (by rw [e2])
  have now1 : s.env.advance.now = tT := by rw [e1, htT]
  have now2 : s.env.advance.advance.now = tA := by rw [e2, now1, htA]
  have now3 : s.env.advance.advance.advance.now = tB := by rw [e3, now2, htB]
  have data2 : s.env.advance.advance.expData = m2.expData := by rw [e2]
  have data3 : s.env.advance.advance.advance.expData = m3.expData := by rw [e3]
  have low1 := hlow.advance
  have low2 := low1.advance
  have low3 := low2.advance
  obtain ⟨s1, step1, env1, h1⟩ := step_relall hlow.rst hpc
  rw [← env1] at low1
  obtain ⟨s2, step2, env2, h2⟩ := h1.step_turbo low1.rst
  rw [← env1, ← env2] at low2 now2 data2
  obtain ⟨s3, step3, env3, h3⟩ := h2.step_sampleA low2.rst (by rw [env2, env1, e2]; exact hdone2)
  rw [← env1, ← env2, ← env3] at low3 now3 data3
  obtain ⟨s4, step4, env4, h4⟩ := h3.step_sampleB low3.rst (by rw [env3, env2, env1, e3]; exact hdone3)
  rw [now3, data3, now2, data2, env1, now1] at h4
  refine ⟨s4, h4, ?_, fun P h => (((h.step step4).step step3).step step2).step step1⟩
  rw [env4]
  exact low3.advance

/-- Settles O38: four steps bring the machine to the walk, which with DPADOUT and COMMIT, or with BADSLOT, ends the cycle within 3*N_BUTTONS + 2 more. -/
theorem cycleIsItsFunction : Obligations.CycleIsItsFunction := by
  intro s m1 m2 m3 rest tT tA tB hparams hkey hpc hrst hscript hlength hmoves hdone2 hdone3 htT htA htB
  have hlow : s.env.LowFor (3 * s.params.nButtons + 2 + 4) := by
    refine ⟨hrst, hmoves, ?_⟩
    rw [hscript]
    simp only [List.length_cons]
    omega
  obtain ⟨u, hfollows, hlowWalk, hreach⟩ := reaches_walk hpc hlow hscript hdone2 hdone3 htT htA htB
  have hwalk := walkFrom_start (r := s.cycleSampled tT m2.expData tA m3.expData tB) hparams hkey
  have hend := hwalk.endsWithin hparams.keys_le hfollows rfl hlowWalk
  obtain ⟨k, t, hk, hrun, hports, hvalid⟩ := hreach _ hend
  refine ⟨k, t, hk, hrun, ?_⟩
  rw [cycle_eq_walkEnd]
  have ht := eq_of_offPorts hports
  rw [hvalid] at ht
  exact ht

end Sys2Proof.Machine

/-! PROOF. HALT holds everything until reset (R197, R198). -/

namespace Sys2Proof.Machine

/-- Settles O39: HALT writes its own position and nothing else (R197). -/
theorem haltStays : Obligations.HaltStays := fun _ => rfl

/-- At its own position HALT leaves the whole state as it is. -/
theorem exec_halt_of_pc {s : State} (hpc : s.pc = Pc.start .halt) : exec .halt s = .next s := by
  have hstay : exec .halt s = .next (s.setPc (Pc.start .halt)) := haltStays s
  rw [hstay, ← hpc]
  rfl

/-- A halted step clears the strobes and lets the environment move, no more (R197; log 3, log 8). -/
theorem step_halt {s : State} (hrst : s.env.rst = false) (hpc : s.pc = Pc.start .halt) :
    step s = .next s.quiet.advanceEnv :=
  step_of_exec hrst (fetch_start hpc rfl) (exec_halt_of_pc (s := s.quiet) hpc)

/-- A halted run, by induction on its steps: each leaves a halted state and `rst` low for the rest of the run (R198). -/
theorem run_halt {s : State} {k : Nat} (hpc : s.pc = Pc.start .halt) (hlow : s.env.LowFor k) :
    ∃ e, Host.Core.run Sys2Proof.core (k + 1) s = .next { s.quiet with env := e } := by
  induction k generalizing s with
  | zero => exact ⟨s.env.advance, run_of_step (step_halt hlow.rst hpc)⟩
  | succ k ih =>
    obtain ⟨e, hrun⟩ := ih (s := s.quiet.advanceEnv) hpc hlow.advance
    exact ⟨e, (run_of_step (step_halt hlow.rst hpc)).trans hrun⟩

/-- Settles O47: the script keeps `rst` low for the whole halted run. -/
theorem onlyResetLeavesHalt : Obligations.OnlyResetLeavesHalt :=
  fun _ _ hpc hrst hmoves hlength => run_halt hpc ⟨hrst, hmoves, hlength⟩

end Sys2Proof.Machine

/-! PROOF. Reset wins over every step (R201, R215, R216), and with WF_MAPTAB and no cap on the readings nothing leads to HALT (R218). -/

namespace Sys2Proof.Machine

/-- Settles O48: `rst` is looked at before the position, and the layer's keys and D-pad state go with the block's registers. -/
theorem resetWinsOverEveryStep : Obligations.ResetWinsOverEveryStep := by
  intro s hrst
  rw [step_of_rst hrst]
  rfl

/-! ## What a step leaves alone -/

/-- No step changes a parameter, a reset included (R34, R216). -/
theorem step_params {s t : State} (h : step s = .next t) : t.params = s.params := by
  rcases step_cases h with ⟨-, rfl⟩ | ⟨hrst, -⟩
  · rfl
  · obtain ⟨ph, -, hwrites⟩ := step_writes hrst h
    exact hwrites.params

/-! ## The two ways into HALT: the cap of CFGEXP and an illegal slot word (R192, R151) -/

/-- Without a cap CFGEXP goes to LOAD or makes another reading (R84). -/
theorem State.posAfter_cfgexp_of_uncapped {s : State} (h : s.params.cfgMaxReads = 0) :
    s.posAfter .cfgexp = if s.cfgAgrees then Pc.start .load else Pc.start .cfgexp := by
  simp [State.posAfter, h]

/-- Without a cap no phase but HALT itself leads to HALT. -/
theorem PhaseEffect.keeps_out_of_halt {s u : State} {ph : Phase} (h : PhaseEffect s ph u) (hpc : s.pc = Pc.start ph)
    (hbuttons : 0 < s.params.nButtons) (huncapped : s.params.cfgMaxReads = 0) (hrun : s.pc.phase ≠ Phase.halt.code) :
    u.pc.phase ≠ Phase.halt.code := by
  have hhalt : ph ≠ .halt := by
    rintro rfl
    exact hrun (congrArg Pc.phase hpc)
  have hresolve : ph ≠ .resolve := by
    rintro rfl
    exact h
  rcases h.pc with hafter | ⟨-, hstays⟩
  · rw [hafter]
    by_cases hcfg : ph = .cfgexp
    · subst hcfg
      rw [State.posAfter_cfgexp_of_uncapped huncapped]
      split <;> decide
    · exact (posAfter_legal s hbuttons hresolve hcfg hhalt).2
  · rwa [hstays]

/-- With WF_MAPTAB the slot registers hold legal words, whichever configuration they were loaded from (R68). -/
theorem KeysMatchConfig.legal_of_readKey {s : State} {b : BitVec 4} {slot : BitVec 2} {w : SlotWord}
    (hkeys : KeysMatchConfig s) (hwf : WfMaptab s.params) (hs : slot ≠ 0) (hb : b.toNat < s.params.nButtons)
    (hw : s.readKey slot b = some w) : legal s.params.nBtnKeys w = true := by
  obtain ⟨v, hread, htable⟩ := hkeys b slot hs hb
  have hpos : 1 ≤ slot.toNat := Nat.one_le_iff_ne_zero.2 fun h0 => hs (BitVec.eq_of_toNat_eq h0)
  obtain ⟨v', htable', hlegal⟩ := hwf _ _ _ s.cfgIndex.isLt hb hpos (Nat.le_of_lt_succ slot.isLt)
  obtain rfl : v = w := Option.some.inj (hread.symm.trans hw)
  obtain rfl : v' = v := Option.some.inj (htable'.symm.trans htable)
  exact hlegal

/-- RESOLVE over legal words goes on with its walk (R170). -/
theorem execResolve_keeps_out_of_halt {s u : State} {b : BitVec 4} {slot : BitVec 2}
    (h : execResolve b slot s = .next u) (hkeys : KeysMatchConfig s) (hwf : WfMaptab s.params) :
    u.pc.phase ≠ Phase.halt.code := by
  obtain ⟨hs, hb, ⟨-, rfl⟩ | ⟨-, w, hw, ⟨-, -, rfl | ⟨k, -, rfl⟩⟩ | ⟨d, -, -, rfl⟩ | ⟨hillegal, -⟩⟩⟩ := execResolve_cases h
  · exact (nextButton_legal _ b).2
  · exact (nextSlot_legal slot hb).2
  · exact (nextSlot_legal slot hb).2
  · exact (nextSlot_legal slot hb).2
  · exact absurd (hillegal.symm.trans (hkeys.legal_of_readKey hwf hs hb hw)) Bool.false_ne_true

/-- Neither way into HALT is open: there is no cap, and the Active Mapping has no illegal word. -/
theorem CannotHalt.step_running {s t : State} (hs : CannotHalt s) (h : step s = .next t) :
    t.pc.phase ≠ Phase.halt.code := by
  rcases step_effect h with ⟨-, rfl⟩ | ⟨-, ⟨ph, u, hpc, hu, rfl⟩ | ⟨b, slot, u, hpc, hu, rfl⟩⟩
  · exact show Phase.pinmode.code ≠ Phase.halt.code by decide
  · exact hu.keeps_out_of_halt hpc (Nat.lt_of_lt_of_le (by decide) hs.params.buttons_ge) hs.uncapped hs.running
  · have hkeys : KeysMatchConfig s := hs.mapping (by rw [hpc]; rfl)
    exact execResolve_keeps_out_of_halt (u := u) hu (hkeys.congr rfl rfl rfl) hs.maptab

/-- Settles O59: the parameters stay, the Active Mapping is kept by O55, and so HALT is not reached. -/
theorem stepKeepsOutOfHalt : Obligations.StepKeepsOutOfHalt := by
  intro s t hs h
  have hparams := step_params h
  exact {
    params := hparams ▸ hs.params
    maptab := hparams ▸ hs.maptab
    uncapped := hparams ▸ hs.uncapped
    running := hs.step_running h
    mapping := stepKeepsTheActiveMapping s t hs.mapping h }

end Sys2Proof.Machine

/-! PROOF. The configuration bit's pin belongs to no button (R41, R225). -/

namespace Sys2Proof.Machine

/-- A PINMAP entry is its bank and its pin number (R67). -/
theorem pinEntry_pinBank_pinBit : ∀ e : BitVec 4, pinEntry (pinBank e) (pinBit e) = e := by decide

/-- A button on the configuration bit's bank has another pin number (R41). -/
theorem LegalParams.pinBit_ne {p : Params} {e : BitVec 4} (hp : LegalParams p) (he : e ∈ p.pinmap)
    (hbank : pinBank e = p.cfgExpBank) : (pinBit e).toNat ≠ p.cfgExpBit.toNat := by
  intro hbit
  have hentry : pinEntry p.cfgExpBank p.cfgExpBit = e := by
    rw [← hbank, ← BitVec.eq_of_toNat_eq hbit, pinEntry_pinBank_pinBit]
  exact hp.pinmap_avoids_cfg (hentry ▸ he)

/-- PINMAP answers with its own entries only. -/
theorem mem_pinmap_of_memReadPinmap {p : Params} {b : Nat} {e : BitVec 4} (h : memReadPinmap p b = some e) :
    e ∈ p.pinmap := by
  rw [memReadPinmap] at h
  split at h
  · exact List.mem_of_getElem? h
  · cases h

/-- `isPressed` reads the accepted levels of the pins in PINMAP, and no other (R101). -/
theorem State.isPressed_congr_of_pins {s t : State} (hp : t.params = s.params)
    (hpins : ∀ e ∈ s.params.pinmap,
      (t.bank (pinBank e)).acc.getLsbD (pinBit e).toNat = (s.bank (pinBank e)).acc.getLsbD (pinBit e).toNat)
    (b : BitVec 4) : t.isPressed b = s.isPressed b := by
  rw [State.isPressed, State.isPressed, hp]
  cases hentry : memReadPinmap s.params b.toNat with
  | none => rfl
  | some e => rw [Option.map_some, Option.map_some, hpins e (mem_pinmap_of_memReadPinmap hentry)]

/-- The state with another accepted byte in one bank. -/
def State.withAcc (s : State) (v : Byte) : Bank → State
  | .A => { s with bankA := { s.bankA with acc := v } }
  | .B => { s with bankB := { s.bankB with acc := v } }

theorem State.withAcc_params (s : State) (v : Byte) (k : Bank) : (s.withAcc v k).params = s.params := by
  cases k <;> rfl

theorem State.withAcc_bank_self (s : State) (v : Byte) (k : Bank) : ((s.withAcc v k).bank k).acc = v := by
  cases k <;> rfl

theorem State.withAcc_bank_of_ne (s : State) (v : Byte) {j k : Bank} (h : j ≠ k) : (s.withAcc v k).bank j = s.bank j := by
  cases j <;> cases k
  case A.B | B.A => rfl
  case A.A | B.B => exact absurd rfl h

/-- Accepted bytes that differ at most at the configuration bit leave the same buttons pressed (R225). -/
theorem State.isPressed_withAcc_cfgExpBank {s : State} {v w : Byte} (hlegal : LegalParams s.params)
    (hbits : ∀ i, i ≠ s.params.cfgExpBit.toNat → v.getLsbD i = w.getLsbD i) (b : BitVec 4) :
    (s.withAcc v s.params.cfgExpBank).isPressed b = (s.withAcc w s.params.cfgExpBank).isPressed b := by
  refine State.isPressed_congr_of_pins (by rw [State.withAcc_params, State.withAcc_params]) (fun e he => ?_) b
  rw [State.withAcc_params] at he
  by_cases hbank : pinBank e = s.params.cfgExpBank
  · rw [hbank, State.withAcc_bank_self, State.withAcc_bank_self]
    exact hbits _ (hlegal.pinBit_ne he hbank)
  · rw [s.withAcc_bank_of_ne v hbank, s.withAcc_bank_of_ne w hbank]

/-- Settles O31: the bank of the configuration bit is one of the two. -/
theorem configurationBitIsNoButton : Obligations.ConfigurationBitIsNoButton := by
  intro s b v w hlegal hbits
  have hsame := State.isPressed_withAcc_cfgExpBank hlegal hbits b
  constructor <;> intro hbank <;> rw [hbank] at hsame <;> exact hsame

end Sys2Proof.Machine

/-! PROOF. The boot sequence from reset to RELALL (R217): PINMODE, EXPINIT, CFGDIR, two readings that agree, LOAD and BEGIN. -/

namespace Sys2Proof.Machine

/-! ## A step whose environment makes a scripted move -/

/-- The input ports show the move `m`, and `l` is to come (R32; log 3). -/
structure Env.Shows (e : Env) (m : EnvMove) (l : List EnvMove) : Prop where
  rst : e.rst = m.rst
  expDone : e.expDone = m.expDone
  expData : e.expData = m.expData
  cfgPin : e.cfgPin = m.cfgPin
  script : e.script = l

/-- The next move of a script is what the ports show after it. -/
theorem Env.shows_advance {e : Env} {m : EnvMove} {l : List EnvMove} (h : e.script = m :: l) : e.advance.Shows m l := by
  rw [Env.advance_of_script h]
  exact ⟨rfl, rfl, rfl, rfl, rfl⟩

/-- A phase's instruction that answers `u`, then the script's next move: the run goes on from `u` with the ports showing that move. -/
theorem run_phase {s u : State} {ph : Phase} {i : Instr} {m : EnvMove} {l : List EnvMove} (hpc : s.pc = Pc.start ph)
    (hrst : s.env.rst = false) (hi : instrOfPhase ph = some i) (hexec : exec i s.quiet = .next u)
    (hscript : u.env.script = m :: l) :
    ∃ t : State, t = { u with env := t.env } ∧ t.env.Shows m l ∧
      ∀ k, Host.Core.run Sys2Proof.core (k + 1) s = Host.Core.run Sys2Proof.core k t :=
  ⟨u.advanceEnv, rfl, Env.shows_advance hscript, fun _ => run_of_step (step_of_exec hrst (fetch_start hpc hi) hexec)⟩

/-! ## The three stretches of the boot sequence -/

/-- CFG_DIR as the pins give it, active low (R83). -/
def cfgDirOf (pins : BitVec 3) : BitVec 3 :=
  BitVec.ofBool (!pins.getLsbD 0) ++ BitVec.ofBool (!pins.getLsbD 1) ++ BitVec.ofBool (!pins.getLsbD 2)

theorem exec_cfgdir (s : State) :
    exec .cfgdir s = .next { s with cfgDir := cfgDirOf s.env.cfgPin, pc := Pc.start .cfgexp } := rfl

/-- PINMODE, EXPINIT and CFGDIR, the transport answering INIT (R81 to R83). -/
theorem run_pinmode_to_cfgexp {s : State} {m1 m2 m3 : EnvMove} {l : List EnvMove} (hpc : s.pc = Pc.start .pinmode)
    (hrst : s.env.rst = false) (hscript : s.env.script = m1 :: m2 :: m3 :: l) (hrst1 : m1.rst = false)
    (hrst2 : m2.rst = false) (hdone1 : m1.expDone = true) :
    ∃ t : State, t = { s.quiet with
        pinPullup := 0b111, cfgDir := cfgDirOf m2.cfgPin, pc := Pc.start .cfgexp, env := t.env } ∧ t.env.Shows m3 l ∧
      ∀ k, Host.Core.run Sys2Proof.core (k + 3) s = Host.Core.run Sys2Proof.core k t := by
  obtain ⟨s1, eq1, show1, run1⟩ := run_phase hpc hrst rfl rfl hscript
  obtain ⟨s2, eq2, show2, run2⟩ := run_phase (congrArg State.pc eq1) (show1.rst.trans hrst1) rfl
    (exec_expinit_answered (s := s1.quiet) (show1.expDone.trans hdone1)) show1.script
  obtain ⟨s3, eq3, show3, run3⟩ := run_phase (congrArg State.pc eq2) (show2.rst.trans hrst2) rfl (exec_cfgdir s2.quiet)
    show2.script
  refine ⟨s3, ?frame, show3, fun k => by rw [run1, run2, run3]⟩
  rw [State.quiet_env, show2.cfgPin, eq2, eq1] at eq3
  exact eq3

/-- The first reading, kept whatever it is: nothing to agree with, and no cap is 1 (R84). -/
theorem exec_cfgexp_first {s : State} (hdone : s.env.expDone = true) (hfirst : s.cfgPrevV = false)
    (hreads : s.cfgReads = 0) (hcap : s.params.cfgMaxReads ≠ 1) :
    exec .cfgexp s = .next { s with
      expOp := readOp s.params.cfgExpBank, cfgReads := 1, cfgWaited := false, cfgPrev := s.cfgReading, cfgPrevV := true
      pc := Pc.start .cfgexp, env := s.cfgAsked.env } := by
  have hagrees : s.cfgAsked.cfgAgrees = false :=
    (cfgAgrees_eq_false_iff s).2 fun h => absurd (hfirst.symm.trans h) Bool.false_ne_true
  have hbelow : s.params.cfgMaxReads = 0 ∨ s.cfgReads + 1 < s.params.cfgMaxReads := by omega
  have hone : s.cfgAsked.cfgReads + 1 = 1 := congrArg (· + 1) hreads
  rw [exec_cfgexp_answered hdone, cfgexpReading_below_cap hagrees hbelow, hone]
  rfl

/-- A reading that agrees with the one before (R84, R85). -/
theorem exec_cfgexp_agrees {s : State} (hdone : s.env.expDone = true) (hprevV : s.cfgPrevV = true)
    (hprev : s.cfgReading = s.cfgPrev) :
    exec .cfgexp s = .next { s with
      expOp := readOp s.params.cfgExpBank, cfgReads := s.cfgReads + 1, cfgWaited := false
      cfgIndex := s.cfgDir ++ BitVec.ofBool s.cfgReading, pc := Pc.start .load, env := s.cfgAsked.env } := by
  have hagrees : s.cfgAsked.cfgAgrees = true := (cfgAgrees_iff s).2 ⟨hprevV, hprev⟩
  rw [exec_cfgexp_answered hdone, cfgexpReading_of_agrees hagrees]
  rfl

/-- CFGEXP twice, from the first reading on, the transport answering twice with the configuration bit `r` (R84, R85). -/
theorem run_cfgexp_to_load {s : State} {m3 m4 m5 : EnvMove} {l : List EnvMove} {r : Bool} (hpc : s.pc = Pc.start .cfgexp)
    (hfirst : s.cfgPrevV = false) (hreads : s.cfgReads = 0) (hcap : s.params.cfgMaxReads ≠ 1)
    (hshow : s.env.Shows m3 (m4 :: m5 :: l)) (hrst3 : m3.rst = false) (hrst4 : m4.rst = false)
    (hdone3 : m3.expDone = true) (hdone4 : m4.expDone = true)
    (hr3 : (!m3.expData.getLsbD s.params.cfgExpBit.toNat) = r)
    (hr4 : (!m4.expData.getLsbD s.params.cfgExpBit.toNat) = r) :
    ∃ t : State, t = { s with
        expOp := readOp s.params.cfgExpBank, evtValid := false, cfgReads := 2, cfgWaited := false
        cfgPrev := r, cfgPrevV := true, cfgIndex := s.cfgDir ++ BitVec.ofBool r, pc := Pc.start .load, env := t.env } ∧
      t.env.Shows m5 l ∧ ∀ k, Host.Core.run Sys2Proof.core (k + 2) s = Host.Core.run Sys2Proof.core k t := by
  have hread3 : s.quiet.cfgReading = r := by rw [State.cfgReading, State.quiet_env, hshow.expData]; exact hr3
  obtain ⟨s1, eq1, show1, run1⟩ := run_phase hpc (hshow.rst.trans hrst3) rfl
    (exec_cfgexp_first (s := s.quiet) (hshow.expDone.trans hdone3) hfirst hreads hcap) hshow.script
  have hparams : s1.params = s.params := (congrArg State.params eq1 :)
  have hprev : s1.cfgPrev = r := (congrArg State.cfgPrev eq1 :).trans hread3
  have hread4 : s1.quiet.cfgReading = r := by
    rw [State.cfgReading, State.quiet_env, State.quiet_params, show1.expData, hparams]
    exact hr4
  obtain ⟨s2, eq2, show2, run2⟩ := run_phase (congrArg State.pc eq1) (show1.rst.trans hrst4) rfl
    (exec_cfgexp_agrees (s := s1.quiet) (show1.expDone.trans hdone4) (congrArg State.cfgPrevV eq1) (hread4.trans hprev.symm))
    show1.script
  refine ⟨s2, ?frame, show2, fun k => by rw [run1, run2]⟩
  rw [hread4, eq1, hread3] at eq2
  exact eq2

/-- LOAD and BEGIN (R91 to R93). -/
theorem run_load_to_relall {s : State} {m5 m6 m7 : EnvMove} {l : List EnvMove} (hpc : s.pc = Pc.start .load)
    (hshow : s.env.Shows m5 (m6 :: m7 :: l)) (hrst5 : m5.rst = false) (hrst6 : m6.rst = false) :
    ∃ t : State, KeysMatchConfig t ∧ t = { s with
        key := t.key, turboTs := t.turboTs, expOp := .none, evt := 0x00, evtValid := true, events := s.events ++ [0x00]
        pc := Pc.start .relall, env := t.env } ∧
      ∀ k, Host.Core.run Sys2Proof.core (k + 2) s = Host.Core.run Sys2Proof.core k t := by
  obtain ⟨u, hexec, heffect⟩ := exec_load_effect s.quiet
  obtain ⟨-, hframe⟩ := heffect.load_frame
  obtain ⟨s1, eq1, show1, run1⟩ := run_phase hpc (hshow.rst.trans hrst5) rfl hexec
    ((congrArg (·.env.script) hframe).trans hshow.script)
  have hpc1 : s1.pc = Pc.start .begin := (congrArg State.pc eq1).trans (congrArg State.pc hframe)
  obtain ⟨s2, eq2, -, run2⟩ := run_phase hpc1 (show1.rst.trans hrst6) rfl (beginLatchesTheTurboTime s1.quiet)
    show1.script
  have hkeys : KeysMatchConfig s2 := by
    rw [eq2, eq1]
    exact heffect.load_keys.congr rfl rfl rfl
  refine ⟨s2, hkeys, ?frame, fun k => by rw [run1, run2]⟩
  rw [eq2, eq1, hframe]
  rfl

/-- CFG_DIR's bits, the first pin's the most significant (R83). -/
theorem getLsbD_cfgDirOf (pins : BitVec 3) :
    (cfgDirOf pins).getLsbD 2 = !pins.getLsbD 0 ∧ (cfgDirOf pins).getLsbD 1 = !pins.getLsbD 1 ∧
      (cfgDirOf pins).getLsbD 0 = !pins.getLsbD 2 :=
  getLsbD_ofBool_append₃ _ _ _

/-- Settles O25: the three stretches of the boot sequence one after the other, and CFG_INDEX read as the number of R85. -/
theorem bootReachesRun : Obligations.BootReachesRun := by
  intro p e m1 m2 m3 m4 m5 m6 m7 rest hrst hscript hlow hdone hcap hequal
  simp only [List.forall_mem_cons] at hlow hdone
  obtain ⟨rst1, rst2, rst3, rst4, rst5, rst6, -⟩ := hlow
  obtain ⟨done1, done3, done4, -⟩ := hdone
  obtain ⟨s3, eq3, show3, run3⟩ := run_pinmode_to_cfgexp (s := { State.resetWith p with env := e }) rfl hrst hscript
    rst1 rst2 done1
  have hparams : s3.params = p := congrArg State.params eq3
  obtain ⟨s5, eq5, show5, run5⟩ := run_cfgexp_to_load (s := s3) (congrArg State.pc eq3) (congrArg State.cfgPrevV eq3)
    (congrArg State.cfgReads eq3) (by rwa [hparams]) show3 rst3 rst4 done3 done4 (by rw [hparams, hequal]) (by rw [hparams])
  obtain ⟨t, hkeys, eq7, run7⟩ := run_load_to_relall (congrArg State.pc eq5) show5 rst5 rst6
  rw [eq5, eq3] at eq7
  have hindex : t.cfgIndex = cfgDirOf m2.cfgPin ++ BitVec.ofBool (!m4.expData.getLsbD p.cfgExpBit.toNat) :=
    congrArg State.cfgIndex eq7
  refine ⟨t, by rw [run3, run5, run7]; rfl, congrArg State.pc eq7, congrArg State.mode eq7, congrArg State.events eq7,
    congrArg State.fault eq7, congrArg State.pinPullup eq7, congrArg State.cfgReads eq7, ?index, hkeys⟩
  case index =>
    obtain ⟨h2, h1, h0⟩ := getLsbD_cfgDirOf m2.cfgPin
    rw [hindex, toNat_cfgIndex, h2, h1, h0]

end Sys2Proof.Machine
